-- ==== Sys2Proof/Word.lean ====
section
/-! DEFINITION. The words of the Lapryn 6402: the widths the manual gives its bytes, samples, positions and indices, and nothing else. -/

namespace Sys2Proof

/-- A byte of a lane, a message or a span. -/
abbrev Byte := BitVec 8

/-- A 24-bit two's-complement audio sample (00_scope, 5). -/
abbrev Sample := BitVec 24

/-- A show position, a program time or a ring sample time, all counted modulo 2^40 (R39). -/
abbrev Position := BitVec 40

/-- The window index, which counts modulo 2^35 (R2). -/
abbrev WindowIndex := BitVec 35

/-- A span number, 0..4095, which counts modulo 4096 (R11). -/
abbrev SpanNumber := BitVec 12

end Sys2Proof
end

