-- ==== Sys2Proof/Syntax.lean ====
section
/-! DEFINITION. The commands of the part: one constructor per row of spec/opcode_table.json, in the table's order, with the operands
the row's rule reads from outside. -/

namespace Sys2Proof

/-- The two show ports. -/
inductive Port where
  | a
  | b
deriving DecidableEq, Repr

/-- The other show port (00_scope, 5: "Y for the other port"). -/
def Port.other : Port → Port
  | .a => .b
  | .b => .a

/-- The RATE selection (R1). -/
inductive Rate where
  | khz48
  | khz96
deriving DecidableEq, Repr

/-- The two kinds of reset (00_scope, 5). -/
inductive ResetKind where
  | powerUp
  | hardReset
deriving DecidableEq, Repr

/-- One command. A verb command carries the port whose rig sends the request, the request's tag and its operand bytes. -/
inductive Instr where
  /-- START_UP: power becomes stable or RESET_N is released, with this level on RATE. -/
  | startUp (kind : ResetKind) (rate : Rate)
  /-- RESET_N_ASSERTED: the RESET_N line is pulled low. -/
  | resetNAsserted
  /-- POWER_LOSS: power goes. -/
  | powerLoss
  /-- SPAN_COMPLETE: the last byte of a forward span arrives on a show port. -/
  | spanComplete (p : Port) (bytes : List Byte)
  /-- SPAN_PERIOD_START: the next span period begins. -/
  | spanPeriodStart
  /-- SYNC_COUNTDOWN_EXPIRY: the last SYNC program span is sent. -/
  | syncCountdownExpiry
  /-- PROGRAM_SAMPLE: the mixer makes the next program sample. -/
  | programSample
  /-- TRANSITION_START: the controller answers a span start with a scheduled OPEN or FADE start. -/
  | transitionStart
  /-- REVERSAL: the controller answers a span start with a scheduled REVERSAL. -/
  | reversal
  /-- PENDING_SWITCH_FIRE: the pending switch record meets its trigger. -/
  | pendingSwitchFire
  /-- FADE_END: the fade position has reached the fade length. -/
  | fadeEnd
  /-- ADOPTION: the pending apply record meets its trigger, or is released. -/
  | adoption
  /-- WINDOW_CLOSE: a show port closes its receive window. -/
  | windowClose (p : Port)
  /-- ABSENT_RUN_REACHES_N_DOWN: the absent window that takes a LOCKED or STANDBY port to DOWN. -/
  | absentRunReachesNDown (p : Port)
  /-- CLEAN_COUNT_REACHES_Q_OK: the window that makes a RECOVERING port GOOD. -/
  | cleanCountReachesQOk (p : Port)
  /-- REVERT: the window of the preferred port whose notice creates the revert record. -/
  | revert
  /-- SKEW_ACCEPTANCE: the window of this port at which a skew is accepted. -/
  | skewAcceptance (p : Port)
  /-- RECENTRE: the window of the on-air port at which the delays are recentred. -/
  | recentre
  /-- TIMEOUT: the window of this port at which its message in progress times out. -/
  | timeout (p : Port)
  /-- PANEL_SAMPLING: the contacts are sampled, with these levels on the panel lines (closed or asserted). -/
  | panelSampling (forceA forceB showlock : Bool)
  /-- PRESS: the sampling at which this contact's debounce count becomes 4, with the other contact at this level. -/
  | press (contact : Port) (otherClosed : Bool)
  /-- STORE_COMPLETION: the store write in flight ends, with this result of its verify. -/
  | storeCompletion (verified : Bool)
  /-- STATE request. -/
  | state (p : Port) (tag : Byte) (operands : List Byte)
  /-- READ request. -/
  | read (p : Port) (tag : Byte) (operands : List Byte)
  /-- WRITE request. -/
  | write (p : Port) (tag : Byte) (operands : List Byte)
  /-- APPLY request. -/
  | apply (p : Port) (tag : Byte) (operands : List Byte)
  /-- DISCARD request. -/
  | discard (p : Port) (tag : Byte) (operands : List Byte)
  /-- SWITCH request. -/
  | switch (p : Port) (tag : Byte) (operands : List Byte)
  /-- AUTO request. -/
  | auto (p : Port) (tag : Byte) (operands : List Byte)
  /-- LOCK request, with the level of SHOWLOCK at that moment. -/
  | lock (p : Port) (tag : Byte) (operands : List Byte) (showlock : Bool)
  /-- EVENTS request. -/
  | events (p : Port) (tag : Byte) (operands : List Byte)
  /-- FLUSH request. -/
  | flush (p : Port) (tag : Byte) (operands : List Byte)
  /-- SAVE request. -/
  | save (p : Port) (tag : Byte) (operands : List Byte)
  /-- COUNTERS request. -/
  | counters (p : Port) (tag : Byte) (operands : List Byte)
  /-- IDENT request. -/
  | ident (p : Port) (tag : Byte) (operands : List Byte)
  /-- BAD_VERB: a request whose verb code names no verb. -/
  | badVerb (p : Port) (tag : Byte) (verb : Byte) (operands : List Byte)
deriving DecidableEq, Repr

end Sys2Proof
end

