-- ==== Sys2Proof/Config.lean ====
section
/-! DEFINITION. The fixed quantities of the part (00_scope, 6) and the free values the manual leaves open. -/

namespace Sys2Proof.Config

/-- Output channels, and channels of a forward span. -/
def channels : Nat := 64

/-- Sample periods in a span. -/
def spanLength : Nat := 32

/-- Bytes of a span on any of the three links (R156; 11.1). -/
def spanBytes : Nat := 6166

/-- Complete spans an elastic store holds (R4). -/
def elasticDepth : Nat := 2

/-- Slots of a delay ring (1.6). -/
def ringSlots : Nat := 64

/-- Lowest delay, in sample periods (R43). -/
def delayMin : Nat := 64

/-- Highest delay, in sample periods (R43). -/
def delayMax : Nat := 2016

/-- Lane bytes of one span (R16, R17). -/
def laneBytes : Nat := 8

/-- Largest message, unescaped (8.1). -/
def messageBytes : Nat := 96

/-- Largest operand string of a request (8.1). -/
def operandBytes : Nat := 94

/-- Messages a request queue holds (R125). -/
def requestDepth : Nat := 4

/-- Bytes a reply queue holds (R128). -/
def replyBytes : Nat := 512

/-- Free reply bytes a port must have before the engine takes a request from it (R126). -/
def replyReserve : Nat := 194

/-- Bytes of whole records the event queue holds (R145). -/
def eventBytes : Nat := 1024

/-- Bytes of records one EVENTS reply carries (R138). -/
def eventsReplyBytes : Nat := 88

/-- Window closes at which a message in progress times out (R124). -/
def messageAge : Nat := 65

/-- Program spans sent as SYNC after a reset (R18). -/
def syncSpans : Nat := 16

/-- Windows after which a stopped run means that the whole ring is past the stop (R49). -/
def stoppedWindows : Nat := 64

/-- Consecutive closed samplings that make a press (R77). -/
def pressSamplings : Nat := 4

/-- Vendor code of Jorvag in the IDENT reply (11.4). -/
def vendorCode : Nat := 0x3A71

/-- Part number in the IDENT reply (11.4). -/
def partNumber : Nat := 6402

/-- Revision number in the IDENT reply (11.4). -/
def revision : Nat := 1

/-- FREE VALUE. The song byte that a STATE reply carries for a pending record whose trigger is not AT_SONG. R130 and 11.4 give
the byte and no rule says what it holds (log 12). It is applied to a counter that every STATE execution advances. -/
opaque unstatedSong : Nat → Byte

/-- FREE VALUE. Bits 7 to 2 of the flags byte of a STATE reply: 11.4 names bits 0 and 1 and no rule says what the others hold
(log 34). It is applied to the same counter. -/
opaque unstatedFlags : Nat → BitVec 6

end Sys2Proof.Config
end

