-- ==== Sys2Proof/Machine/Types.lean ====
section
/-! DEFINITION. The plain data of each block of the part: the records, queues and names that State holds. -/

namespace Sys2Proof.Machine

/-- A value held once per show port. -/
structure PerPort (α : Type) where
  a : α
  b : α
deriving DecidableEq, Repr

/-! ### Show links (01) -/

/-- Whether the part runs, is held in reset by RESET_N, or has no power (R154, R155). -/
inductive RunState where
  | off
  | held
  | running
deriving DecidableEq, Repr

/-- The kinds of a forward span (R157). -/
inductive SpanKind where
  | data
  | idle
  | sync
  | standby
deriving DecidableEq, Repr

/-- The receiver state of a show port (1.4). -/
inductive RxState where
  | down
  | training
  | locked
  | standby
deriving DecidableEq, Repr

/-- A valid forward span, decoded (R157). The lane holds the first lane-count bytes of the control lane. -/
structure ForwardSpan where
  kind : SpanKind
  number : SpanNumber
  run : Bool
  mark : Bool
  markOffset : Nat
  song : Byte
  heartbeat : Byte
  position : Position
  lane : List Byte
  audio : List Sample
deriving DecidableEq, Repr

/-- The outcome of a window (R5), with what the taken span gives: nothing, the audio field of a check failure, or a valid span. -/
inductive WindowOutcome where
  | absent
  | check (audio : List Sample)
  | valid (f : ForwardSpan)
deriving DecidableEq, Repr

/-- Whether the window's span number matched the expected one (R11). -/
inductive SequenceResult where
  | matched
  | mismatched
  | notCompared
deriving DecidableEq, Repr

/-- The last-valid-span record (R12). -/
structure LastValid where
  window : WindowIndex
  position : Position
  run : Bool
  song : Byte
deriving DecidableEq, Repr

/-- The span metadata of a slot (1.6). -/
structure SlotMeta where
  number : SpanNumber
  position : Position
  run : Bool
  mark : Bool
  markOffset : Nat
  song : Byte
deriving DecidableEq, Repr

/-- One slot of a delay ring: EMPTY, VALID or PREDICTED, the last two with metadata and 32 x 64 samples, sample period major (1.6, R13). -/
inductive Slot where
  | empty
  | valid (info : SlotMeta) (audio : List Sample)
  | predicted (info : SlotMeta) (audio : List Sample)
deriving DecidableEq, Repr

/-- The management errors of a port (R125). -/
inductive MgmtErrorKind where
  | short
  | long
  | escape
  | timeout
  | broken
  | dropped
deriving DecidableEq, Repr

/-- The eleven counters of a show port, each a 32-bit saturating count (R19). -/
structure Counters where
  taken : Nat
  checkFailures : Nat
  absentWindows : Nat
  overruns : Nat
  sequenceFaults : Nat
  short : Nat
  long : Nat
  escape : Nat
  timeout : Nat
  broken : Nat
  dropped : Nat
deriving DecidableEq, Repr

/-- Deframer states (8.1). -/
inductive DeframerMode where
  | hunt
  | body
  | escape
deriving DecidableEq, Repr

/-- The deframer of a show port (8.1). `busy` is the message in progress. -/
structure Deframer where
  mode : DeframerMode
  body : List Byte
  busy : Bool
  age : Nat
  continuity : Option SpanNumber
deriving DecidableEq, Repr

/-- A show port: elastic store, receiver, delay ring, counters, deframer, request queue, WAIT flag and reply queue. -/
structure ShowPort where
  store : List (List Byte)
  rx : RxState
  sync : Nat
  absentRun : Nat
  expected : SpanNumber
  lastValid : Option LastValid
  ring : List Slot
  counters : Counters
  deframer : Deframer
  requests : List (List Byte)
  wait : Bool
  replies : List Byte
deriving DecidableEq, Repr

/-- The program port's own state (R18). -/
structure ProgramPort where
  countdown : Nat
  heartbeat : Byte
deriving DecidableEq, Repr

/-! ### Link health (02) -/

/-- The seven faults, in the order that decides ties (R31). -/
inductive FaultKind where
  | absent
  | check
  | sequence
  | stall
  | stopped
  | jump
  | pilot
deriving DecidableEq, Repr

/-- The verdicts of a port (2.6). -/
inductive Verdict where
  | good
  | suspect
  | failed
  | recovering
deriving DecidableEq, Repr

/-- The cause of a verdict (2.1). -/
inductive HealthCause where
  | noCause
  | fault (k : FaultKind)
  | notLocked
  | standby
deriving DecidableEq, Repr

/-- The facts of a port's most recent valid DATA span (R29). -/
structure DataEntry where
  window : WindowIndex
  position : Position
  run : Bool
  heartbeat : Byte
deriving DecidableEq, Repr

/-- A port's health record (2.1). -/
structure HealthRecord where
  score : Nat
  verdict : Verdict
  cause : HealthCause
  clean : Nat
  lockView : Bool
  lastData : Option DataEntry
  lastRunning : Option Position
deriving DecidableEq, Repr

/-- The window report a port hands on (R15). `span` is the valid span the window took, when it took one; it carries the span
number, RUN, MARK, song, heartbeat and show position. -/
structure WindowReport where
  window : WindowIndex
  rx : RxState
  changed : Bool
  outcome : WindowOutcome
  sequence : SequenceResult
  pilot : Option (List Sample)
deriving DecidableEq, Repr

/-! ### Alignment (03) -/

/-- The alignment states (R51). -/
inductive AlignState where
  | unknown
  | confirming
  | aligned
  | outOfRange
deriving DecidableEq, Repr

/-- The program position record (3.1). -/
structure ProgramPosition where
  position : Position
  run : Bool
  song : Byte
deriving DecidableEq, Repr

/-- The lead a port has reported for the window being gathered (R40): not reported yet, or reported with or without a lead. -/
inductive WindowLead where
  | unreported
  | reported (lead : Option Int)
deriving DecidableEq, Repr

/-- The alignment unit's record (3.1). The alignment state is derived (R51). -/
structure Alignment where
  accepted : Option Int
  candidate : Option Int
  confirm : Nat
  delays : PerPort Nat
  clamp : Bool
  deferred : Bool
  transition : Bool
  stopped : PerPort Nat
  leads : PerPort WindowLead
  position : ProgramPosition
deriving DecidableEq, Repr

/-! ### Failover controller (04) -/

/-- The controller states (4.1). `fade x` is FADE_XY: X is the on-air and outgoing port, the other port the target. -/
inductive Mode where
  | idle
  | opening (target : Port)
  | on (x : Port)
  | fade (x : Port)
deriving DecidableEq, Repr

/-- What a scheduled start begins (R57). -/
inductive StartAction where
  | opening
  | fade
  | reversal
deriving DecidableEq, Repr

/-- The causes of a transition (R57). -/
inductive SwitchCause where
  | opening
  | failure
  | request
  | panel
  | revert
deriving DecidableEq, Repr

/-- A scheduled start (R57). -/
structure ScheduledStart where
  action : StartAction
  target : Port
  cause : SwitchCause
deriving DecidableEq, Repr

/-- The trigger of a pending record (4.1; 6.1). -/
inductive Trigger where
  | now
  | atMark
  | atSong (song : Byte)
deriving DecidableEq, Repr

/-- A pending switch record (R70). -/
structure PendingSwitch where
  target : Port
  trigger : Trigger
  cause : SwitchCause
deriving DecidableEq, Repr

/-- The failover controller: switch record, scheduled start, pending switch record, flags and counts (4.1). -/
structure Controller where
  mode : Mode
  q : Nat
  len : Nat
  aligned : Bool
  sat : Nat
  scheduled : Option ScheduledStart
  pendingSwitch : Option PendingSwitch
  auto : Bool
  degraded : Bool
  holdoff : Nat
  debounce : PerPort Nat
deriving DecidableEq, Repr

/-! ### Splice mixer (05) -/

/-- A mark the mixer reports (R93). -/
structure MarkReport where
  port : Port
  song : Byte
deriving DecidableEq, Repr

/-- The mixer: the span it is making (rows of 64 samples, in program time order), its first mark, and the delays its program
span is read with (R43, R98). The `owed` flags say which answers to the span start just reported are still to come (R92 step 1);
`earlyMark` is a mark answered ahead of its sample. -/
structure Mixer where
  rows : List (List Sample)
  firstMark : Option Nat
  delays : PerPort Nat
  owedStart : Bool
  owedSwitch : Bool
  owedApply : Bool
  earlyMark : Option MarkReport
deriving DecidableEq, Repr

/-! ### Tables and lock (06, 07) -/

/-- The classes of an output channel (5.1). -/
inductive RouteClass where
  | byDefault
  | follow
  | cut
  | pinA
  | pinB
  | mute
deriving DecidableEq, Repr

/-- A ROUTE entry (5.1). A slot of NONE is `none`. -/
structure RouteEntry where
  cls : RouteClass
  slotA : Option (Fin 64)
  slotB : Option (Fin 64)
  curve : Fin 4
deriving DecidableEq, Repr

/-- One copy of the three tables: 64 ROUTE entries, 260 CURVE points (point i of curve n at 65 n + i), 28 PROFILE fields (6.1). -/
structure Tables where
  route : List RouteEntry
  curve : List Nat
  profile : List Nat
deriving DecidableEq, Repr

/-- Which table a request names (11.2). -/
inductive TableName where
  | route
  | curve
  | profile
deriving DecidableEq, Repr

/-- The modes of the lock record (7.1). -/
inductive LockMode where
  | openMode
  | line
  | latched
deriving DecidableEq, Repr

/-- The lock record (7.1). -/
structure LockRecord where
  code : Fin 8
  complement : Bool
  mode : LockMode
deriving DecidableEq, Repr

/-- The phase of a pending apply record (6.1). -/
inductive ApplyPhase where
  | waiting
  | deferred
deriving DecidableEq, Repr

/-- The pending apply record (6.1). -/
structure ApplyRecord where
  trigger : Trigger
  phase : ApplyPhase
deriving DecidableEq, Repr

/-- Table memory: both copies, the pending apply record and the lock record. -/
structure TableMemory where
  live : Tables
  staged : Tables
  apply : Option ApplyRecord
  lock : LockRecord
deriving DecidableEq, Repr

/-! ### Management and events (08, 09) -/

/-- Status codes of a reply (R127). -/
inductive Status where
  | ok
  | pending
  | already
  | busy
  | badVerb
  | badLength
  | badTable
  | badIndex
  | badValue
  | badCurve
  | badProfile
  | locked
  | notReady
deriving DecidableEq, Repr

/-- The eighteen kinds of event record, each with its port and detail (R144). -/
inductive EventBody where
  | portState (p : Port) (old new : RxState)
  | verdict (p : Port) (v : Verdict) (cause : HealthCause) (score : Nat)
  | switchStart (fromPort : Option Port) (toPort : Port) (cause : SwitchCause) (aligned : Bool) (m : Nat) (position : Position)
  | switchEnd (onAir : Port) (sat : Nat)
  | switchReversed (target : Port) (q : Nat)
  | switchAbandoned (target : Port)
  | pendingCancelled (target : Port) (cause : SwitchCause)
  | degraded (onAir : Option Port)
  | skew (s : Int) (delay : Nat)
  | outOfRange (s : Int)
  | recentre (onAir : Port) (old new : Nat)
  | applyDone (route curve profile : Bool)
  | applyRefused (reason : Status)
  | mgmtError (p : Port) (kind : MgmtErrorKind) (count : Nat)
  | storeFail
  | storeInvalid
  | panel (contact : Port) (refused : Bool)
  | storeDone
deriving DecidableEq, Repr

/-- An event record: what happened and the window index, modulo 2^32, of its span period (R143). -/
structure EventRecord where
  body : EventBody
  stamp : BitVec 32
deriving DecidableEq, Repr

/-- The event queue (R145): whole records, oldest first, and the lost count. -/
structure EventQueue where
  records : List EventRecord
  lost : Nat
deriving DecidableEq, Repr

/-! ### Settings store (10) -/

/-- What SAVE snapshots and the store holds: the three tables and the lock record (R151). -/
structure StoreContents where
  tables : Tables
  lock : LockRecord
deriving DecidableEq, Repr

/-- The stored copy with its check word (10.1). -/
structure StoredCopy where
  contents : StoreContents
  check : Nat
deriving DecidableEq, Repr

/-- The settings store. `copy` is absent from the moment a write begins until a write completes with a successful verify (R150);
`writing` is the snapshot of the write in flight, and the store state is WRITING exactly while there is one. -/
structure SettingsStore where
  copy : Option StoredCopy
  writing : Option StoreContents
deriving DecidableEq, Repr

/-! ### Lines, clock and what leaves the part -/

/-- Levels of the input lines: FORCE contacts closed, SHOWLOCK asserted, RESET_N asserted (2.1). -/
structure InputLines where
  forceA : Bool
  forceB : Bool
  showlock : Bool
  resetN : Bool
deriving DecidableEq, Repr

/-- Levels of the output lines: lamps lit, ALERT asserted (2.1). -/
structure OutputLines where
  tallyA : Bool
  tallyB : Bool
  alert : Bool
deriving DecidableEq, Repr

/-- Where the part stands in its span period (R2): the window index, whether the first period has begun, how many of the period's
32 program samples are made, which windows are closed and whether the contacts are sampled. -/
structure Clock where
  window : WindowIndex
  begun : Bool
  made : Nat
  closed : PerPort Bool
  panelDone : Bool
deriving DecidableEq, Repr

/-- The contents of a return span (R17). Its kind is RETURN and its reply-lane count is the length of `lane`. -/
structure ReturnSpan where
  number : SpanNumber
  onAir : Bool
  wait : Bool
  fade : Bool
  degraded : Bool
  mode : Mode
  lane : List Byte
deriving DecidableEq, Repr

/-- The contents of a program span (R18): SYNC with its number alone, or DATA. `rows` are the 32 rows of 64 samples. -/
inductive ProgramSpan where
  | sync (number : SpanNumber)
  | data (number : SpanNumber) (heartbeat : Byte) (mark : Option Nat) (position : ProgramPosition) (rows : List (List Sample))
deriving DecidableEq, Repr

end Sys2Proof.Machine
end

