-- ==== Sys2Proof/Machine/Basics.lean ====
section
/-! DEFINITION. Small helpers on the plain data: per-port access, saturating counts, the signed reading of a 40-bit remainder, and the
ports a controller state names. -/

namespace Sys2Proof.Machine

/-- The value held for one port. -/
def PerPort.get {α : Type} (x : PerPort α) : Port → α
  | .a => x.a
  | .b => x.b

/-- Replace the value held for one port. -/
def PerPort.set {α : Type} (x : PerPort α) (p : Port) (v : α) : PerPort α :=
  match p with
  | .a => { x with a := v }
  | .b => { x with b := v }

/-- The same value for both ports. -/
def PerPort.both {α : Type} (v : α) : PerPort α :=
  ⟨v, v⟩

/-- A counter that stops at its largest value (00_scope, 5). -/
def satAdd (cap n k : Nat) : Nat :=
  min cap (n + k)

/-- A remainder modulo 2^40 read as a signed value in -2^39 + 1 .. 2^39 (R39). -/
def signed40 (x : Position) : Int :=
  if x.toNat ≤ 2 ^ 39 then (x.toNat : Int) else (x.toNat : Int) - 2 ^ 40

/-- An integer reduced modulo 2^40. -/
def position40 (x : Int) : Position :=
  BitVec.ofInt 40 x

/-- 32 times a window index, modulo 2^40: the sample time of the first sample of its slot, and the program time of the first
sample of its program span (R2, R39). -/
def windowTime (w : WindowIndex) : Position :=
  BitVec.ofNat 40 (32 * w.toNat)

/-- A span number from a window index, modulo 4096 (R2). -/
def windowNumber (w : WindowIndex) : SpanNumber :=
  BitVec.ofNat 12 w.toNat

/-- The on-air port that a controller state names (4.1): X in ON_X and FADE_XY. -/
def Mode.onAir : Mode → Option Port
  | .idle => none
  | .opening _ => none
  | .on x => some x
  | .fade x => some x

/-- The target that a controller state names (4.1): X in OPENING toward X, Y in FADE_XY. -/
def Mode.target : Mode → Option Port
  | .idle => none
  | .opening x => some x
  | .on _ => none
  | .fade x => some x.other

/-- OPENING and the two fade states are the transition states (4.1). -/
def Mode.isTransition : Mode → Bool
  | .idle => false
  | .opening _ => true
  | .on _ => false
  | .fade _ => true

/-- The verdicts that make a port ready (R36). -/
def Verdict.ready : Verdict → Bool
  | .good => true
  | .suspect => true
  | .failed => false
  | .recovering => false

end Sys2Proof.Machine
end

