-- ==== Sys2Proof/Machine/Factory.lean ====
section
/-! DEFINITION. The factory tables (R82, R88, R100) and the value each block's state takes at power-up and hard reset. -/

namespace Sys2Proof.Machine

/-- Factory ROUTE entry k: DEFAULT, slots k and k, curve 0 (R82). -/
def factoryRouteEntry (k : Fin 64) : RouteEntry :=
  { cls := .byDefault, slotA := some k, slotB := some k, curve := 0 }

/-- The factory ROUTE table (R82). -/
def factoryRoute : List RouteEntry :=
  (List.finRange 64).map factoryRouteEntry

/-- The linear curve c[i] = 512 i (R88). -/
def linearCurve : List Nat :=
  (List.range 65).map (512 * ·)

/-- The equal-power curve c[i] = 32768 sin(i π / 128), rounded to the nearest integer (R88). -/
def equalPowerCurve : List Nat :=
  [0, 804, 1608, 2411, 3212, 4011, 4808, 5602, 6393, 7180, 7962, 8740, 9512,
    10279, 11039, 11793, 12540, 13279, 14010, 14733, 15447, 16151, 16846, 17531, 18205, 18868]
    ++ [19520, 20160, 20788, 21403, 22006, 22595, 23170, 23732, 24279, 24812, 25330, 25833, 26320,
    26791, 27246, 27684, 28106, 28511, 28899, 29269, 29622, 29957, 30274, 30572, 30853, 31114]
    ++ [31357, 31581, 31786, 31972, 32138, 32286, 32413, 32522, 32610, 32679, 32729, 32758, 32768]

/-- The factory CURVE table: curves 0, 2 and 3 linear, curve 1 equal power (R88). -/
def factoryCurve : List Nat :=
  linearCurve ++ equalPowerCurve ++ linearCurve ++ linearCurve

/-- The factory PROFILE table, in field order (R100). -/
def factoryProfile : List Nat :=
  [96, 48, 48, 24, 255, 0, 64, 4, 64, 192, 32, 64, 255, 255]
    ++ [0, 0, 750, 8, 32, 64, 1, 256, 8, 16, 8, 4, 1, 49798]

/-- The factory tables (R155 step 3). -/
def factoryTables : Tables :=
  { route := factoryRoute, curve := factoryCurve, profile := factoryProfile }

/-- The lock record of a power-up with an invalid store (R120). -/
def openLock : LockRecord :=
  { code := 0, complement := false, mode := .openMode }

/-- All counters 0 (R20, R141). -/
def zeroCounters : Counters :=
  { taken := 0, checkFailures := 0, absentWindows := 0, overruns := 0, sequenceFaults := 0, short := 0, long := 0, escape := 0,
    timeout := 0, broken := 0, dropped := 0 }

/-- The deframer after a reset (R129). -/
def resetDeframer : Deframer :=
  { mode := .hunt, body := [], busy := false, age := 0, continuity := none }

/-- A show port after a reset (R20, R129). -/
def resetPort : ShowPort :=
  { store := [], rx := .down, sync := 0, absentRun := 0, expected := 0, lastValid := none,
    ring := List.replicate Config.ringSlots .empty, counters := zeroCounters, deframer := resetDeframer, requests := [],
    wait := false, replies := [] }

/-- The program port after a reset (R20). -/
def resetProgramPort : ProgramPort :=
  { countdown := Config.syncSpans, heartbeat := 0 }

/-- A health record after a reset (R38). -/
def resetHealth : HealthRecord :=
  { score := 255, verdict := .failed, cause := .notLocked, clean := 0, lockView := false, lastData := none, lastRunning := none }

/-- The program position record after a reset (R56). -/
def resetPosition : ProgramPosition :=
  { position := 0, run := false, song := 0 }

/-- The alignment unit after a reset, with the live guard delay G (R56). -/
def resetAlignment (g : Nat) : Alignment :=
  { accepted := none, candidate := none, confirm := 0, delays := PerPort.both g, clamp := false, deferred := false,
    transition := false, stopped := PerPort.both 0, leads := PerPort.both .unreported, position := resetPosition }

/-- The failover controller after a reset (R81). -/
def resetController : Controller :=
  { mode := .idle, q := 0, len := 0, aligned := false, sat := 0, scheduled := none, pendingSwitch := none, auto := true,
    degraded := false, holdoff := 0, debounce := PerPort.both 0 }

/-- The splice mixer after a reset (R98). -/
def resetMixer (g : Nat) : Mixer :=
  { rows := [], firstMark := none, delays := PerPort.both g, owedStart := false, owedSwitch := false, owedApply := false,
    earlyMark := none }

/-- The clock after a reset: window index 0, its span period not begun (R20, R155). -/
def resetClock : Clock :=
  { window := 0, begun := false, made := 0, closed := PerPort.both false, panelDone := false }

/-- Table memory after a reset that made `live` the live tables and `lock` the lock record (R111, R120). -/
def resetTables (live : Tables) (lock : LockRecord) : TableMemory :=
  { live := live, staged := live, apply := none, lock := lock }

end Sys2Proof.Machine
end

