-- ==== Sys2Proof/Machine/Profile.lean ====
section
/-! DEFINITION. The PROFILE fields by name (R100): each reads its index of one copy of the table. -/

namespace Sys2Proof.Machine

/-- PROFILE field number i of one copy (R99). -/
def Tables.field (t : Tables) (i : Nat) : Nat :=
  t.profile.getD i 0

/-- The weight of a fault: fields 0 to 6, in the order of the faults (R100). -/
def Tables.weight (t : Tables) : FaultKind → Nat
  | .absent => t.field 0
  | .check => t.field 1
  | .sequence => t.field 2
  | .stall => t.field 3
  | .stopped => t.field 4
  | .jump => t.field 5
  | .pilot => t.field 6

/-- DECAY. -/
def Tables.decay (t : Tables) : Nat := t.field 7

/-- T_WARN. -/
def Tables.tWarn (t : Tables) : Nat := t.field 8

/-- T_FAIL. -/
def Tables.tFail (t : Tables) : Nat := t.field 9

/-- T_OK. -/
def Tables.tOk (t : Tables) : Nat := t.field 10

/-- Q_OK. -/
def Tables.qOk (t : Tables) : Nat := t.field 11

/-- A pilot field: a channel 0..63, or 255 for NONE. -/
def pilotChannel (v : Nat) : Option Nat :=
  if v < 64 then some v else none

/-- PILOT_A or PILOT_B. -/
def Tables.pilot (t : Tables) : Port → Option Nat
  | .a => pilotChannel (t.field 12)
  | .b => pilotChannel (t.field 13)

/-- PREFERRED: A (0) or B (1). -/
def Tables.preferred (t : Tables) : Port :=
  if t.field 14 = 1 then .b else .a

/-- Whether REVERT is AT_MARK (1) and not NEVER (0). -/
def Tables.revertAtMark (t : Tables) : Bool :=
  t.field 15 == 1

/-- HOLDOFF. -/
def Tables.holdoff (t : Tables) : Nat := t.field 16

/-- The M field that R57 names for a cause: M_OPEN, M_FAIL or M_MANUAL. -/
def Tables.fadeSpans (t : Tables) : SwitchCause → Nat
  | .opening => t.field 19
  | .failure => t.field 17
  | .request => t.field 18
  | .panel => t.field 18
  | .revert => t.field 18

/-- UNALIGNED_CURVE. -/
def Tables.unalignedCurve (t : Tables) : Nat := t.field 20

/-- The guard delay G. -/
def Tables.guardDelay (t : Tables) : Nat := t.field 21

/-- K_SKEW. -/
def Tables.kSkew (t : Tables) : Nat := t.field 22

/-- L_SYNC. -/
def Tables.lSync (t : Tables) : Nat := t.field 23

/-- N_DOWN. -/
def Tables.nDown (t : Tables) : Nat := t.field 24

/-- STOP_GRACE. -/
def Tables.stopGrace (t : Tables) : Nat := t.field 25

/-- The class a code names (11.3). Codes above 5 name none. -/
def classOfCode : Nat → Option RouteClass
  | 0 => some .byDefault
  | 1 => some .follow
  | 2 => some .cut
  | 3 => some .pinA
  | 4 => some .pinB
  | 5 => some .mute
  | _ => none

/-- DEFAULT_CLASS, which never names DEFAULT (R82). -/
def Tables.defaultClass (t : Tables) : RouteClass :=
  match classOfCode (t.field 26) with
  | some c => c
  | none => .mute

/-- ALERT_MASK. -/
def Tables.alertMask (t : Tables) : Nat := t.field 27

/-- The range of PROFILE field i (R100). -/
def profileInRange (i v : Nat) : Bool :=
  match i with
  | 7 | 8 | 9 | 11 | 22 | 23 | 24 => decide (1 ≤ v ∧ v ≤ 255)
  | 10 => decide (v ≤ 254)
  | 12 | 13 => decide (v < 64 ∨ v = 255)
  | 14 | 15 => decide (v ≤ 1)
  | 16 => decide (1 ≤ v ∧ v ≤ 65535)
  | 17 | 18 | 19 => decide (v ≤ 64)
  | 20 => decide (v ≤ 3)
  | 21 => decide (64 ≤ v ∧ v ≤ 1024)
  | 26 => decide (1 ≤ v ∧ v ≤ 5)
  | 27 => decide (v ≤ 65535)
  | _ => decide (v ≤ 255)

/-- The last index of a table (R101). -/
def TableName.lastIndex : TableName → Nat
  | .route => 63
  | .curve => 259
  | .profile => 27

/-- How many entries one request may write or one reply carry (R101, R131). -/
def TableName.maxEntries : TableName → Nat
  | .route => 22
  | .curve => 45
  | .profile => 28

/-- Bytes of one entry (11.3). -/
def TableName.entryBytes : TableName → Nat
  | .route => 4
  | .curve => 2
  | .profile => 2

end Sys2Proof.Machine
end

