-- ==== Sys2Proof/Machine/Formats.lean ====
section
/-! DEFINITION. The byte layouts of chapter 11: the check word, the decoding of forward spans, the spans the part sends, the codes, and
event records as bytes. -/

namespace Sys2Proof.Machine

/-! ### Bytes -/

/-- A multi-byte field, most significant byte first (00_scope, 5). -/
def natOfBytes (l : List Byte) : Nat :=
  l.foldl (fun n b => n * 256 + b.toNat) 0

/-- `k` bytes of a number modulo 256^k, most significant first. -/
def bytesOfNat : Nat → Nat → List Byte
  | 0, _ => []
  | k + 1, n => bytesOfNat k (n / 256) ++ [BitVec.ofNat 8 n]

/-- `k` zero bytes. -/
def zeroBytes (k : Nat) : List Byte :=
  List.replicate k 0

/-- A byte from a small code. -/
def byteOf (n : Nat) : Byte :=
  BitVec.ofNat 8 n

/-- A flag as a byte, 1 or 0. -/
def flagByte (b : Bool) : Byte :=
  if b then 1 else 0

/-! ### The check word (R156) -/

/-- One bit of the CRC-16: shift left, and subtract the generator 0x1021 when a one leaves the top. -/
def crcBit (c : Nat) : Nat :=
  bif Nat.ble 32768 c then Nat.xor (2 * c - 65536) 0x1021 else 2 * c

/-- One byte of the CRC-16, most significant bit first. -/
def crcByte (c : Nat) (b : Byte) : Nat :=
  crcBit (crcBit (crcBit (crcBit (crcBit (crcBit (crcBit (crcBit (Nat.xor c (b.toNat * 256)))))))))

/-- The CRC-16 of a byte string from the register value `c`. The guard never holds, since the register stays below 2^16; asking for
it makes an evaluation finish each byte before the next. -/
def crcFrom : Nat → List Byte → Nat
  | c, [] => c
  | c, b :: rest => bif Nat.ble 65536 c then 0 else crcFrom (crcByte c b) rest

/-- The check word over a byte string: initial value 0xFFFF, no reflection, no final inversion (R156). -/
def crc16 (bytes : List Byte) : Nat :=
  crcFrom 0xFFFF bytes

/-- A byte string followed by its check word, high byte first (R156). -/
def withCheckWord (bytes : List Byte) : List Byte :=
  bytes ++ bytesOfNat 2 (crc16 bytes)

/-! ### Forward spans (R3, R157) -/

/-- The 24-bit samples of an audio field, three bytes each (11.1). -/
def samplesOfBytes : List Byte → List Sample
  | x :: y :: z :: rest => BitVec.ofNat 24 (natOfBytes [x, y, z]) :: samplesOfBytes rest
  | _ => []

/-- The audio field of a span: offsets 20 to 6163 (11.1). -/
def audioField (bytes : List Byte) : List Sample :=
  samplesOfBytes ((bytes.drop 20).take 6144)

/-- Sample period j of channel k of an audio field, sample period major (11.1). -/
def audioAt (audio : List Sample) (j k : Nat) : Sample :=
  audio.getD (64 * j + k) 0

/-- The kind a code names; RETURN and every other code name no forward kind (R157). -/
def spanKindOfCode (b : Byte) : Option SpanKind :=
  if b = 0x5A then some .data
  else if b = 0x3C then some .idle
  else if b = 0x96 then some .sync
  else if b = 0xC3 then some .standby
  else none

/-- The check word test at a window close (R156). A span that is not 6166 bytes long cannot pass it (log 17). -/
def checkWordMatches (bytes : List Byte) : Bool :=
  bytes.length == Config.spanBytes && natOfBytes (bytes.drop 6164) == crc16 (bytes.take 6164)

/-- The header of a span whose check word matches, with its kind known and its lane count at most 8 (R157). -/
def decodeSpan (kind : SpanKind) (bytes : List Byte) : ForwardSpan :=
  let flags := bytes.getD 1 0
  let mark := flags.getLsbD 6
  { kind := kind
    number := BitVec.ofNat 12 (natOfBytes ((bytes.drop 2).take 2))
    run := flags.getLsbD 7
    mark := mark
    markOffset := if mark then flags.toNat % 32 else 0
    song := bytes.getD 4 0
    heartbeat := bytes.getD 5 0
    position := BitVec.ofNat 40 (natOfBytes ((bytes.drop 6).take 5))
    lane := (bytes.drop 12).take (bytes.getD 11 0).toNat
    audio := audioField bytes }

/-- The outcome of a window that takes these bytes: a check failure in each of the three cases of R3, else the valid span. -/
def judgeSpan (bytes : List Byte) : WindowOutcome :=
  if checkWordMatches bytes then
    match spanKindOfCode (bytes.getD 0 0) with
    | some kind => if (bytes.getD 11 0).toNat ≤ 8 then .valid (decodeSpan kind bytes) else .check (audioField bytes)
    | none => .check (audioField bytes)
  else .check (audioField bytes)

/-! ### Codes (11.2) -/

/-- Port codes; an absent port is 0xFF. -/
def portCode : Option Port → Byte
  | some .a => 0
  | some .b => 1
  | none => 0xFF

/-- Controller state codes. -/
def modeCode : Mode → Byte
  | .idle => 0
  | .opening _ => 1
  | .on .a => 2
  | .on .b => 3
  | .fade .a => 4
  | .fade .b => 5

/-- Receiver state codes. -/
def rxCode : RxState → Byte
  | .down => 0
  | .training => 1
  | .locked => 2
  | .standby => 3

/-- Verdict codes. -/
def verdictCode : Verdict → Byte
  | .good => 0
  | .suspect => 1
  | .failed => 2
  | .recovering => 3

/-- Health cause codes. -/
def healthCauseCode : HealthCause → Byte
  | .noCause => 0
  | .fault .absent => 1
  | .fault .check => 2
  | .fault .sequence => 3
  | .fault .stall => 4
  | .fault .stopped => 5
  | .fault .jump => 6
  | .fault .pilot => 7
  | .notLocked => 8
  | .standby => 9

/-- Switch cause codes; 0 stands for no cause and is carried by no record. -/
def switchCauseCode : SwitchCause → Byte
  | .opening => 1
  | .failure => 2
  | .request => 3
  | .panel => 4
  | .revert => 5

/-- Trigger codes. -/
def triggerCode : Trigger → Byte
  | .now => 0
  | .atMark => 1
  | .atSong _ => 2

/-- Alignment state codes. -/
def alignStateCode : AlignState → Byte
  | .unknown => 0
  | .confirming => 1
  | .aligned => 2
  | .outOfRange => 3

/-- Apply phase codes. -/
def phaseCode : ApplyPhase → Byte
  | .waiting => 0
  | .deferred => 1

/-- Lock mode codes. -/
def lockModeCode : LockMode → Byte
  | .openMode => 0
  | .line => 1
  | .latched => 2

/-- Management error codes. -/
def mgmtErrorCode : MgmtErrorKind → Byte
  | .short => 1
  | .long => 2
  | .escape => 3
  | .timeout => 4
  | .broken => 5
  | .dropped => 6

/-- Status codes. -/
def statusCode : Status → Byte
  | .ok => 0x00
  | .pending => 0x01
  | .already => 0x02
  | .busy => 0x03
  | .badVerb => 0x10
  | .badLength => 0x11
  | .badTable => 0x12
  | .badIndex => 0x13
  | .badValue => 0x14
  | .badCurve => 0x15
  | .badProfile => 0x16
  | .locked => 0x20
  | .notReady => 0x21

/-- RATE selection codes. -/
def rateCode : Rate → Byte
  | .khz48 => 0
  | .khz96 => 1

/-- Class codes (11.3). -/
def classCode : RouteClass → Byte
  | .byDefault => 0
  | .follow => 1
  | .cut => 2
  | .pinA => 3
  | .pinB => 4
  | .mute => 5

/-- Slot codes: NONE is 0xFF (11.3). -/
def slotCode : Option (Fin 64) → Byte
  | some k => byteOf k.val
  | none => 0xFF

/-! ### Table entries as bytes (11.3) -/

/-- A ROUTE entry as its 4 bytes. -/
def routeEntryBytes (e : RouteEntry) : List Byte :=
  [classCode e.cls, slotCode e.slotA, slotCode e.slotB, byteOf e.curve.val]

/-- Entry i of a table of one copy as bytes (R131). -/
def tableEntryBytes (t : Tables) (name : TableName) (i : Nat) : List Byte :=
  match name with
  | .route => routeEntryBytes (t.route.getD i (factoryRouteEntry 0))
  | .curve => bytesOfNat 2 (t.curve.getD i 0)
  | .profile => bytesOfNat 2 (t.profile.getD i 0)

/-! ### Spans the part sends (R17, R18; 11.1) -/

/-- A return span as its 6166 bytes: kind RETURN, flags ON_AIR, WAIT, FADE, DEGRADED in bits 7 to 4 (11.1). -/
def returnSpanBytes (r : ReturnSpan) : List Byte :=
  let flags := (if r.onAir then 0x80 else 0) + (if r.wait then 0x40 else 0) + (if r.fade then 0x20 else 0)
    + (if r.degraded then 0x10 else 0)
  withCheckWord ([0xA5, byteOf flags] ++ bytesOfNat 2 r.number.toNat ++ [modeCode r.mode] ++ zeroBytes 6
    ++ [byteOf r.lane.length] ++ r.lane ++ zeroBytes (Config.laneBytes - r.lane.length) ++ zeroBytes 6144)

/-- One row of samples as bytes, in order of channel. -/
def rowBytes (row : List Sample) : List Byte :=
  row.flatMap fun x => bytesOfNat 3 x.toNat

/-- A program span as its 6166 bytes (R18; 11.1). -/
def programSpanBytes : ProgramSpan → List Byte
  | .sync number => withCheckWord ([0x96, 0] ++ bytesOfNat 2 number.toNat ++ zeroBytes 6160)
  | .data number heartbeat mark pos rows =>
    let flags := (if pos.run then 0x80 else 0) + (match mark with | some j => 0x40 + j | none => 0)
    withCheckWord ([0x5A, byteOf flags] ++ bytesOfNat 2 number.toNat ++ [pos.song, heartbeat]
      ++ bytesOfNat 5 pos.position.toNat ++ [0] ++ zeroBytes 8 ++ rows.flatMap rowBytes)

/-! ### Event records (R143, R144; 11.5) -/

/-- Kind codes: the mask bit for a kind that has one, then PANEL and STORE_DONE. -/
def EventBody.code : EventBody → Nat
  | .portState _ _ _ => 0
  | .verdict _ _ _ _ => 1
  | .switchStart _ _ _ _ _ _ => 2
  | .switchEnd _ _ => 3
  | .switchReversed _ _ => 4
  | .switchAbandoned _ => 5
  | .pendingCancelled _ _ => 6
  | .degraded _ => 7
  | .skew _ _ => 8
  | .outOfRange _ => 9
  | .recentre _ _ _ => 10
  | .applyDone _ _ _ => 11
  | .applyRefused _ => 12
  | .mgmtError _ _ _ => 13
  | .storeFail => 14
  | .storeInvalid => 15
  | .panel _ _ => 16
  | .storeDone => 17

/-- The mask bit of a kind: none for PANEL and STORE_DONE (R144). -/
def EventBody.maskBit (b : EventBody) : Option Nat :=
  if b.code < 16 then some b.code else none

/-- The port a record concerns (R144). -/
def EventBody.port : EventBody → Option Port
  | .portState p _ _ => some p
  | .verdict p _ _ _ => some p
  | .switchStart _ _ _ _ _ _ => none
  | .switchEnd _ _ => none
  | .switchReversed _ _ => none
  | .switchAbandoned x => some x
  | .pendingCancelled x _ => some x
  | .degraded x => x
  | .skew _ _ => none
  | .outOfRange _ => none
  | .recentre x _ _ => some x
  | .applyDone _ _ _ => none
  | .applyRefused _ => none
  | .mgmtError p _ _ => some p
  | .storeFail => none
  | .storeInvalid => none
  | .panel c _ => some c
  | .storeDone => none

/-- The changed-tables mask: bit 0 ROUTE, bit 1 CURVE, bit 2 PROFILE (11.5). -/
def changedMask (route curve profile : Bool) : Nat :=
  (if route then 1 else 0) + (if curve then 2 else 0) + (if profile then 4 else 0)

/-- The detail of a record, by its kind (11.5). Bytes the layout does not name are 0. -/
def EventBody.detail : EventBody → List Byte
  | .portState _ old new => [rxCode old, rxCode new, 0, 0]
  | .verdict _ v cause score => [verdictCode v, healthCauseCode cause, byteOf score, 0]
  | .switchStart f t cause aligned m position =>
    [portCode f, portCode (some t), switchCauseCode cause, flagByte aligned, byteOf m, 0] ++ bytesOfNat 5 position.toNat ++ [0]
  | .switchEnd x sat => [portCode (some x), 0] ++ bytesOfNat 2 sat
  | .switchReversed x q => [portCode (some x), 0] ++ bytesOfNat 2 q
  | .switchAbandoned _ => []
  | .pendingCancelled _ cause => [switchCauseCode cause, 0, 0, 0]
  | .degraded _ => []
  | .skew s delay => bytesOfNat 5 (position40 s).toNat ++ [0] ++ bytesOfNat 2 delay
  | .outOfRange s => bytesOfNat 4 (BitVec.ofInt 32 s).toNat
  | .recentre _ old new => bytesOfNat 2 old ++ bytesOfNat 2 new
  | .applyDone r c p => [byteOf (changedMask r c p), 0, 0, 0]
  | .applyRefused reason => [statusCode reason, 0, 0, 0]
  | .mgmtError _ kind count => [mgmtErrorCode kind] ++ bytesOfNat 3 count
  | .storeFail => []
  | .storeInvalid => []
  | .panel c refused => [portCode (some c), flagByte refused, 0, 0]
  | .storeDone => []

/-- The detail length a kind fixes: 0, 4, 8 or 12 bytes (R144). -/
def EventBody.detailLength : EventBody → Nat
  | .switchStart _ _ _ _ _ _ => 12
  | .skew _ _ => 8
  | .switchAbandoned _ => 0
  | .degraded _ => 0
  | .storeFail => 0
  | .storeInvalid => 0
  | .storeDone => 0
  | .portState _ _ _ => 4
  | .verdict _ _ _ _ => 4
  | .switchEnd _ _ => 4
  | .switchReversed _ _ => 4
  | .pendingCancelled _ _ => 4
  | .outOfRange _ => 4
  | .recentre _ _ _ => 4
  | .applyDone _ _ _ => 4
  | .applyRefused _ => 4
  | .mgmtError _ _ _ => 4
  | .panel _ _ => 4

/-- The bytes a record occupies: 8 of header and its detail (R143). -/
def EventRecord.size (r : EventRecord) : Nat :=
  8 + r.body.detailLength

/-- A record as bytes (11.5). -/
def EventRecord.bytes (r : EventRecord) : List Byte :=
  [byteOf r.body.code, portCode r.body.port, byteOf r.body.detailLength, 0] ++ bytesOfNat 4 r.stamp.toNat ++ r.body.detail

/-! ### Messages (8.1, R128) -/

/-- One byte of a message as the lanes carry it (8.1). -/
def escapeByte (b : Byte) : List Byte :=
  if b = 0xF4 then [0xF5, 0x01] else if b = 0xF5 then [0xF5, 0x02] else [b]

/-- A message between separators, escaped (R128). -/
def frameMessage (m : List Byte) : List Byte :=
  [0xF4] ++ m.flatMap escapeByte ++ [0xF4]

/-! ### The settings store's own layout (R156: internal; log 9) -/

/-- The contents of the store as the bytes its check word is computed over. -/
def storeBytes (c : StoreContents) : List Byte :=
  c.tables.route.flatMap routeEntryBytes ++ c.tables.curve.flatMap (bytesOfNat 2) ++ c.tables.profile.flatMap (bytesOfNat 2)
    ++ [byteOf c.lock.code.val, flagByte c.lock.complement, lockModeCode c.lock.mode]

end Sys2Proof.Machine
end

