-- ==== Sys2Proof/Machine/State.lean ====
section
/-! DEFINITION. The state of the part as plain data, what can stop a command, and the state right after a power-up that found no
valid settings. -/

namespace Sys2Proof.Machine

/-- Everything the spec gives the part, one field per block, and the queue of commands that wait. -/
structure State where
  /-- The commands waiting, first in first out. Only `step` reads or writes it. -/
  pending : List Instr
  run : RunState
  rate : Rate
  pins : InputLines
  lines : OutputLines
  clock : Clock
  ports : PerPort ShowPort
  prog : ProgramPort
  health : PerPort HealthRecord
  align : Alignment
  ctrl : Controller
  mixer : Mixer
  tables : TableMemory
  /-- The management engine's round-robin pointer (R126). -/
  pointer : Port
  events : EventQueue
  store : SettingsStore
  /-- The last return span each show port has sent since the reset (R17). -/
  sentReturn : PerPort (Option ReturnSpan)
  /-- The last program span sent since the reset (R18). -/
  sentProgram : Option ProgramSpan
  /-- The model's own count of free values used (log 12). -/
  free : Nat
deriving DecidableEq, Repr

/-- Why the part stops. The spec names no condition that stops it. -/
inductive Fault where
  /-- Raised by no command: no rule of the spec stops the part. Safe, since nothing rests on it. -/
  | stopped
deriving DecidableEq, Repr

/-- Why a command has no meaning. -/
inductive Refusal where
  /-- Raised by exec for a row of the table that has no meaning yet; no row is refused. Safe. -/
  | notModelled (mnemonic : String)
deriving DecidableEq, Repr

/-- Every block at its reset value (R155 step 6), around what the earlier steps of start-up decided: the RATE selection, the live
tables, the lock record, the stored copy and the records queued by the load. -/
def State.fresh (pending : List Instr) (rate : Rate) (pins : InputLines) (live : Tables) (lock : LockRecord)
    (copy : Option StoredCopy) (records : List EventRecord) (free : Nat) : State :=
  let g := live.profile.getD 21 0
  { pending := pending, run := .running, rate := rate, pins := pins, lines := ⟨false, false, false⟩, clock := resetClock,
    ports := PerPort.both resetPort, prog := resetProgramPort, health := PerPort.both resetHealth, align := resetAlignment g,
    ctrl := resetController, mixer := resetMixer g, tables := resetTables live lock, pointer := .a,
    events := ⟨records, 0⟩, store := ⟨copy, none⟩, sentReturn := PerPort.both none, sentProgram := none, free := free }

/-- The input lines with every contact open and every line released (log 5: DESIGN CHOICE). -/
def quietLines : InputLines :=
  { forceA := false, forceB := false, showlock := false, resetN := false }

/-- The part right after power-up at 48 kHz with a settings store that holds no copy: the factory tables are live, and the queue
holds the STORE_INVALID record of R155 step 3, which asserts ALERT (R147). The RATE level and the empty store are DESIGN
CHOICES (log 4). -/
def State.reset : State :=
  { State.fresh [] .khz48 quietLines factoryTables openLock none [⟨.storeInvalid, 0⟩] 0 with lines := ⟨false, false, true⟩ }

end Sys2Proof.Machine
end

