-- ==== Sys2Proof/Machine/Flags.lean ====
section
/-! DEFINITION. Every flag and line the part computes from its state: readiness, the alignment state, WAIT, the flags of a return span,
engagement of the lock, the lamps and ALERT. -/

namespace Sys2Proof.Machine

/-- A port is ready while its verdict is GOOD or SUSPECT (R36). -/
def State.ready (s : State) (p : Port) : Bool :=
  (s.health.get p).verdict.ready

/-- The alignment state, derived whenever it is read (R51). -/
def alignmentState (al : Alignment) : AlignState :=
  match al.accepted with
  | none => .unknown
  | some k => if al.clamp then .outOfRange else if al.candidate ≠ some k ∨ al.deferred then .confirming else .aligned

/-- WAIT after an entry that leaves the request queue holding n messages (R125). -/
def waitAfterEntry (wait : Bool) (n : Nat) : Bool :=
  if 3 ≤ n then true else wait

/-- WAIT after a take that leaves the request queue holding n messages (R125). -/
def waitAfterTake (wait : Bool) (n : Nat) : Bool :=
  if n ≤ 1 then false else wait

/-- ON_AIR of the return spans of port X: ON_X, OPENING toward X, and both fades (R17). -/
def onAirFlag (m : Mode) (p : Port) : Bool :=
  match m with
  | .idle => false
  | .opening x => x == p
  | .on x => x == p
  | .fade _ => true

/-- The base set of a lock code (R112). -/
def lockBase (code : Fin 8) (k : Nat) : Bool :=
  match code with
  | 0 => false
  | 1 => decide (56 ≤ k)
  | 2 => decide (48 ≤ k)
  | 3 => decide (32 ≤ k)
  | 4 => decide (k < 8)
  | 5 => decide (k < 16)
  | 6 => decide (k < 32)
  | 7 => true

/-- Whether output channel k, 0..63, is in the locked channel set (R112). -/
def channelLocked (l : LockRecord) (k : Nat) : Bool :=
  decide (k < 64) && (lockBase l.code k != l.complement)

/-- The lock is engaged while the locked set holds at least one channel (R112). -/
def lockEngaged (l : LockRecord) : Bool :=
  (List.range 64).any (channelLocked l)

/-- A record alerts when its kind has a mask bit and that bit is set in the mask (R147). -/
def recordAlerts (mask : Nat) (r : EventRecord) : Bool :=
  match r.body.maskBit with
  | some n => mask.testBit n
  | none => false

/-- The condition of the ALERT line (R147), with the live mask. -/
def alertCondition (s : State) : Bool :=
  s.events.records.any (recordAlerts s.tables.live.alertMask) || decide (0 < s.events.lost)

/-- TALLY_X by controller state (R79). -/
def tallyLit (m : Mode) (p : Port) : Bool :=
  match m with
  | .idle => false
  | .opening x => x == p
  | .on x => x == p
  | .fade _ => true

/-- The output lines of the state as it stands: lamps and ALERT while the part runs (R79, R147), all dark and released while it is
held in reset or has no power (R154). -/
def outputLines (s : State) : OutputLines :=
  if s.run = .running then ⟨tallyLit s.ctrl.mode .a, tallyLit s.ctrl.mode .b, alertCondition s⟩ else ⟨false, false, false⟩

/-- Let the output lines follow the state (R79, R147). -/
def State.settleLines (s : State) : State :=
  { s with lines := outputLines s }

end Sys2Proof.Machine
end

