-- ==== Sys2Proof/Machine/Ops.lean ====
section
/-! DEFINITION. The named operations every block shares: placing an event record, counting a management error, reading and writing one
port's records, and how a command ends. -/

namespace Sys2Proof.Machine

/-- The outcome type of a command. -/
abbrev Result := Host.Outcome State Fault Refusal

/-- A command ends in a next state, its output lines following the state it leaves (R79, R147). -/
def complete (s : State) : Result :=
  .next s.settleLines

/-- A command of a part that runs. While RESET_N is asserted or power is off, no block changes its state (R153, R154). -/
def whileRunning (f : State → State) (s : State) : Result :=
  if s.run = .running then complete (f s) else complete s

/-- Write one port's show port. -/
def State.setPort (s : State) (p : Port) (x : ShowPort) : State :=
  { s with ports := s.ports.set p x }

/-- Write one port's health record. -/
def State.setHealth (s : State) (p : Port) (h : HealthRecord) : State :=
  { s with health := s.health.set p h }

/-- Write one port's deframer. -/
def State.setDeframer (s : State) (p : Port) (d : Deframer) : State :=
  s.setPort p { s.ports.get p with deframer := d }

/-- The live tables. -/
def State.live (s : State) : Tables :=
  s.tables.live

/-- The port the live PROFILE table prefers. -/
def State.preferred (s : State) : Port :=
  s.live.preferred

/-- The stamp of an event taken now: the window index modulo 2^32 (R143). -/
def State.stamp (s : State) : BitVec 32 :=
  BitVec.ofNat 32 s.clock.window.toNat

/-! ### The event queue (R145) -/

/-- The sum of the sizes of the records held (R145). -/
def fillOf (records : List EventRecord) : Nat :=
  (records.map EventRecord.size).sum

/-- Offer a whole record: placed at the back when it fits in 1024 bytes, else dropped with the lost count increased (R145). -/
def EventQueue.offer (q : EventQueue) (r : EventRecord) : EventQueue :=
  if fillOf q.records + r.size ≤ Config.eventBytes then { q with records := q.records ++ [r] }
  else { q with lost := satAdd 255 q.lost 1 }

/-- A block places a record for an event taken now (R143, R145). -/
def offerEvent (b : EventBody) (s : State) : State :=
  { s with events := s.events.offer ⟨b, s.stamp⟩ }

/-! ### Counters and management errors (R19, R125) -/

/-- One more of a 32-bit saturating count (R19). -/
def countUp (n : Nat) : Nat :=
  satAdd 4294967295 n 1

/-- The counter of a management error kind (R125). -/
def Counters.ofKind (c : Counters) : MgmtErrorKind → Nat
  | .short => c.short
  | .long => c.long
  | .escape => c.escape
  | .timeout => c.timeout
  | .broken => c.broken
  | .dropped => c.dropped

/-- Increment the counter of a management error kind (R125). -/
def Counters.bump (c : Counters) : MgmtErrorKind → Counters
  | .short => { c with short := countUp c.short }
  | .long => { c with long := countUp c.long }
  | .escape => { c with escape := countUp c.escape }
  | .timeout => { c with timeout := countUp c.timeout }
  | .broken => { c with broken := countUp c.broken }
  | .dropped => { c with dropped := countUp c.dropped }

/-- A management error of a port: its counter increases, then MGMT_ERROR carries the kind and the counter's value, limited to
0..16777215 (R125, R144). -/
def raiseMgmtError (p : Port) (k : MgmtErrorKind) (s : State) : State :=
  let port := s.ports.get p
  let counters := port.counters.bump k
  offerEvent (.mgmtError p k (min 16777215 (counters.ofKind k))) (s.setPort p { port with counters := counters })

/-! ### Pending switch record, scheduled start, DEGRADED (04) -/

/-- Remove the pending switch record, if there is one, with PENDING_CANCELLED (R70). -/
def cancelPendingSwitch (s : State) : State :=
  match s.ctrl.pendingSwitch with
  | none => s
  | some r => offerEvent (.pendingCancelled r.target r.cause) { s with ctrl := { s.ctrl with pendingSwitch := none } }

/-- Create a pending switch record, replacing any existing one with PENDING_CANCELLED (R70). A record created after a span start
does not fire at that span start (R71). -/
def createPendingSwitch (r : PendingSwitch) (s : State) : State :=
  let s1 := cancelPendingSwitch s
  { s1 with ctrl := { s1.ctrl with pendingSwitch := some r }, mixer := { s1.mixer with owedSwitch := false } }

/-- Schedule a start (R57). It begins at the next program span to begin, not at one already reported. -/
def scheduleStart (a : StartAction) (target : Port) (cause : SwitchCause) (s : State) : State :=
  { s with ctrl := { s.ctrl with scheduled := some ⟨a, target, cause⟩ }, mixer := { s.mixer with owedStart := false } }

/-- Set DEGRADED, recording it when it passes from clear to set (R65). -/
def setDegraded (s : State) : State :=
  if s.ctrl.degraded then s
  else offerEvent (.degraded s.ctrl.mode.onAir) { s with ctrl := { s.ctrl with degraded := true } }

/-- Clear DEGRADED (R65). Clearing records nothing. -/
def clearDegraded (s : State) : State :=
  { s with ctrl := { s.ctrl with degraded := false } }

end Sys2Proof.Machine
end

