-- ==== Sys2Proof/Machine/Align.lean ====
section
/-! DEFINITION. The alignment unit (03): leads, skew confirmation and acceptance, the delays, recentre, the controller's notices, and the
restamped program position. -/

namespace Sys2Proof.Machine

/-! ### The delays (R43 to R46) -/

/-- Clamp an exact delay into 64..2016 (R43). -/
def clampDelay (x : Int) : Nat :=
  (max (Config.delayMin : Int) (min (Config.delayMax : Int) x)).toNat

/-- The delays a computation gives, and whether a clamp bound. -/
structure DelayPair where
  dOn : Nat
  dOff : Nat
  bound : Bool
deriving DecidableEq, Repr

/-- The recentre of R44, with the accepted skew taken from the on port's side. -/
def recentrePair (g : Nat) : Option Int → DelayPair
  | none => ⟨g, g, false⟩
  | some k =>
    let rawOn := (g : Int) + max 0 k
    let dOn := clampDelay rawOn
    let rawOff := (dOn : Int) - k
    ⟨dOn, clampDelay rawOff, decide ((dOn : Int) ≠ rawOn ∨ (clampDelay rawOff : Int) ≠ rawOff)⟩

/-- The off-air update of R45: the off port's delay from the on port's delay as it stands. -/
def offAirPair (dOn : Nat) (k : Int) : DelayPair :=
  let rawOff := (dOn : Int) - k
  ⟨dOn, clampDelay rawOff, decide ((clampDelay rawOff : Int) ≠ rawOff)⟩

/-- A skew taken from a port's side: s for A, -s for B (R44). -/
def skewFrom (p : Port) (s : Int) : Int :=
  match p with
  | .a => s
  | .b => -s

/-- The port the unit takes as "on" (R44). -/
def State.onPort (s : State) : Port :=
  match s.ctrl.mode with
  | .idle => s.preferred
  | .opening _ => s.preferred
  | .on x => x
  | .fade x => x

/-- Write the delays of the on port and the other port, with the clamp flag (R44 to R46). -/
def setDelays (on : Port) (d : DelayPair) (s : State) : State :=
  { s with align :=
      { s.align with delays := (s.align.delays.set on d.dOn).set on.other d.dOff, clamp := d.bound } }

/-- The recentre that the state would make now (R44). -/
def State.recentreNow (s : State) : DelayPair :=
  recentrePair s.live.guardDelay (s.align.accepted.map (skewFrom s.onPort))

/-- The off-air update that the state would make now with a skew (R45). -/
def State.offAirNow (s : State) (k : Int) : DelayPair :=
  offAirPair (s.align.delays.get s.onPort) (skewFrom s.onPort k)

/-- OUT_OF_RANGE with the accepted skew, limited to its field, when a clamp bound (R46, R144). -/
def recordClamp (bound : Bool) (k : Int) (s : State) : State :=
  if bound then offerEvent (.outOfRange (max (-(2 ^ 31)) (min (2 ^ 31 - 1) k))) s else s

/-- A recentre as the abandon notice makes it: the delays, the clamp flag and OUT_OF_RANGE (R44, R46). -/
def applyRecentre (s : State) : State :=
  let d := s.recentreNow
  let s1 := setDelays s.onPort d s
  match s.align.accepted with
  | none => s1
  | some k => recordClamp d.bound k s1

/-- An off-air update as the end notice makes it (R45, R46). Without an accepted skew none is made. -/
def applyOffAir (s : State) : State :=
  match s.align.accepted with
  | none => s
  | some k =>
    let d := s.offAirNow k
    recordClamp d.bound k (setDelays s.onPort d s)

/-! ### Notices of the controller (R48) -/

/-- The start notice sets the transition flag. -/
def startNotice (s : State) : State :=
  { s with align := { s.align with transition := true } }

/-- The end notice: the transition flag is cleared, and a deferred skew is applied by an off-air update with the new on-air port. -/
def endNotice (s : State) : State :=
  let s1 := { s with align := { s.align with transition := false, deferred := false } }
  if s.align.deferred then applyOffAir s1 else s1

/-- The abandon notice: the transition flag is cleared, and a deferred skew is applied by a recentre. -/
def abandonNotice (s : State) : State :=
  let s1 := { s with align := { s.align with transition := false, deferred := false } }
  if s.align.deferred then applyRecentre s1 else s1

/-! ### Leads, confirmation, acceptance (R39 to R42, R47) -/

/-- The lead of a report: a LOCKED window with a valid DATA span that reports RUN set (R39). -/
def WindowReport.lead (r : WindowReport) : Option Int :=
  match r.outcome with
  | .valid f =>
    if r.rx = .locked ∧ f.kind = .data ∧ f.run = true then some (signed40 (f.position - windowTime r.window)) else none
  | _ => none

/-- The candidate and confirm count after a window that has a skew (R41). -/
def confirmSkew (k : Int) (al : Alignment) : Alignment :=
  if al.candidate = some k then { al with confirm := satAdd 255 al.confirm 1 }
  else { al with candidate := some k, confirm := 1 }

/-- Whether the unit accepts its candidate (R42). -/
def acceptsCandidate (kSkew : Nat) (al : Alignment) : Bool :=
  decide (kSkew ≤ al.confirm ∧ al.candidate.isSome ∧ al.accepted ≠ al.candidate)

/-- Acceptance of a skew: a recentre in IDLE, an off-air update in an ON state, deferral in a transition, and the SKEW record with
its delay, followed by OUT_OF_RANGE when a clamp bound (R42, R47). -/
def acceptSkew (k : Int) (s : State) : State :=
  let s1 := { s with align := { s.align with accepted := some k } }
  let off := s1.onPort.other
  match s1.ctrl.mode with
  | .idle =>
    let d := s1.recentreNow
    recordClamp d.bound k (offerEvent (.skew k d.dOff) (setDelays s1.onPort d s1))
  | .on _ =>
    let d := s1.offAirNow k
    recordClamp d.bound k (offerEvent (.skew k d.dOff) (setDelays s1.onPort d s1))
  | .opening _ =>
    offerEvent (.skew k (s1.align.delays.get off)) { s1 with align := { s1.align with deferred := true } }
  | .fade _ =>
    offerEvent (.skew k (s1.align.delays.get off)) { s1 with align := { s1.align with deferred := true } }

/-- The confirmation step for a window's skew, with the acceptance test after it (R41, R42). -/
def skewStep (k : Int) (s : State) : State :=
  let al := confirmSkew k s.align
  let s1 := { s with align := al }
  if acceptsCandidate s.live.kSkew al then acceptSkew k s1 else s1

/-- Take one port's lead. When the other port's lead of the same window is in, the window's skew is decided and both leads are
cleared (R40). -/
def gatherLead (p : Port) (lead : Option Int) (s : State) : State :=
  match s.align.leads.get p.other with
  | .unreported => { s with align := { s.align with leads := s.align.leads.set p (.reported lead) } }
  | .reported otherLead =>
    let s1 := { s with align := { s.align with leads := PerPort.both .unreported } }
    match lead, otherLead with
    | some x, some y => skewStep (signed40 (position40 (skewFrom p (x - y)))) s1
    | _, _ => s1

/-! ### The stopped run and the recentre on air (R49, R50) -/

/-- Whether a slot counts toward the stopped run: EMPTY, or RUN clear (R49). -/
def Slot.stopped : Slot → Bool
  | .empty => true
  | .valid m _ => !m.run
  | .predicted m _ => !m.run

/-- The stopped run after a window that wrote this slot (R49). -/
def stoppedRunAfter (slot : Slot) (n : Nat) : Nat :=
  if slot.stopped then satAdd Config.stoppedWindows n 1 else 0

/-- Update the reporting port's stopped run (R49). -/
def updateStopped (p : Port) (slot : Slot) (s : State) : State :=
  { s with align :=
      { s.align with stopped := s.align.stopped.set p (stoppedRunAfter slot (s.align.stopped.get p)) } }

/-- Whether a report of port p recentres: p is on air in ON_X, the transition flag is clear, its stopped run is 64 and its delay
differs from its recentre value (R50). -/
def recentreDue (p : Port) (s : State) : Bool :=
  decide (s.ctrl.mode = .on p ∧ s.align.transition = false ∧ s.align.stopped.get p = Config.stoppedWindows
    ∧ s.align.delays.get p ≠ s.recentreNow.dOn)

/-- The recentre of R50: both delays, RECENTRE with the old and new delay of the on-air port, then OUT_OF_RANGE when a clamp
bound. -/
def recentreOnAir (p : Port) (s : State) : State :=
  let d := s.recentreNow
  let s1 := offerEvent (.recentre p (s.align.delays.get p) d.dOn) (setDelays p d s)
  match s.align.accepted with
  | none => s1
  | some k => recordClamp d.bound k s1

/-- The unit takes a window report: stopped run, lead and skew step, then the recentre test (R40, R49, R50). -/
def takeAlignmentReport (p : Port) (r : WindowReport) (slot : Slot) (s : State) : State :=
  let s1 := gatherLead p r.lead (updateStopped p slot s)
  if recentreDue p s1 then recentreOnAir p s1 else s1

/-! ### Reading the rings and the restamped position (R53 to R55) -/

/-- The ring slot of a port that holds the sample of a ring sample time (R53). -/
def State.ringSlot (s : State) (p : Port) (t : Position) : Slot :=
  (s.ports.get p).ring.getD (t.toNat / 32 % Config.ringSlots) .empty

/-- The offset of a ring sample time within its slot (R53). -/
def slotOffset (t : Position) : Nat :=
  t.toNat % 32

/-- The program time of the next program sample: the samples made since the start of program span w (R18). -/
def State.programTime (s : State) : Position :=
  windowTime s.clock.window + BitVec.ofNat 40 s.clock.made

/-- The ring sample time at which port p is read for the next program sample, at the delay its program span began with
(R43, R53). -/
def State.ringTime (s : State) (p : Port) : Position :=
  s.programTime - BitVec.ofNat 40 (s.mixer.delays.get p)

/-- The source port of the restamp (R54). -/
def Mode.source : Mode → Option Port
  | .idle => none
  | .opening x => some x
  | .on x => some x
  | .fade x => some x

/-- The program position record for the program span whose first sample is the next one, from the state as it stands (R55). -/
def State.restamped (s : State) : ProgramPosition :=
  match s.ctrl.mode.source with
  | none => { s.align.position with run := false }
  | some x =>
    let t := windowTime s.clock.window - BitVec.ofNat 40 (s.mixer.delays.get x)
    match s.ringSlot x t with
    | .empty => { s.align.position with position := s.align.position.position + 32 }
    | .valid m _ => ⟨m.position + BitVec.ofNat 40 (slotOffset t), m.run, m.song⟩
    | .predicted m _ => ⟨m.position + BitVec.ofNat 40 (slotOffset t), m.run, m.song⟩

/-- Set the program position record for the program span that begins (R55). -/
def restamp (s : State) : State :=
  { s with align := { s.align with position := s.restamped } }

/-- The output position of the next program sample: the show position its program span carries plus its offset in that span
(R58). At a span's first sample the span's position is the one about to be stamped. -/
def State.outputPosition (s : State) : Position :=
  if s.clock.made = 0 then s.restamped.position else s.align.position.position + BitVec.ofNat 40 s.clock.made

end Sys2Proof.Machine
end

