-- ==== Sys2Proof/Machine/Tables.lean ====
section
/-! DEFINITION. Table memory (06, 07): validation, triggers of the pending apply record, and the adoption. -/

namespace Sys2Proof.Machine

/-! ### Validation (R102, R114) -/

/-- The points of curve n of one copy, c[0] to c[64] (R88). -/
def Tables.curvePoints (t : Tables) (n : Nat) : List Nat :=
  (t.curve.drop (65 * n)).take 65

/-- Each point is at most the point after it. -/
def nonDecreasing : List Nat → Bool
  | x :: y :: rest => decide (x ≤ y) && nonDecreasing (y :: rest)
  | _ => true

/-- The shape validation asks of a curve: c[0] is 0, c[64] is 32768, and each point is at most the next (R88, R102). -/
def curveShape (c : List Nat) : Bool :=
  c.getD 0 1 == 0 && c.getD 64 0 == 32768 && nonDecreasing c

/-- Condition 1 of R102: all four curves have the shape. -/
def curvesShaped (t : Tables) : Bool :=
  (List.range 4).all fun n => curveShape (t.curvePoints n)

/-- Condition 2 of R102: T_OK < T_WARN ≤ T_FAIL. -/
def thresholdsOrdered (t : Tables) : Bool :=
  decide (t.tOk < t.tWarn ∧ t.tWarn ≤ t.tFail)

/-- Whether the copies agree on ROUTE entry k. -/
def routeAgrees (live staged : Tables) (k : Nat) : Bool :=
  staged.route[k]? == live.route[k]?

/-- Condition 3 of R102: while the lock is engaged, staged and live agree on every ROUTE entry of the locked set, every CURVE point
and every PROFILE field (R114). -/
def lockCondition (l : LockRecord) (live staged : Tables) : Bool :=
  !lockEngaged l
    || ((List.range 64).all (fun k => !channelLocked l k || routeAgrees live staged k)
      && staged.curve == live.curve && staged.profile == live.profile)

/-- Validation: the first condition that fails, in the order of R102, or none when all hold. -/
def validate (tm : TableMemory) : Option Status :=
  if !curvesShaped tm.staged then some .badCurve
  else if !thresholdsOrdered tm.staged then some .badProfile
  else if !lockCondition tm.lock tm.live tm.staged then some .locked
  else none

/-! ### The adoption (R106) -/

/-- The adoption itself: revalidate, then copy all three tables at once, or leave them. Either way the pending apply record is
removed. Its event record is `recordAdoption`'s (R106). -/
def adopt (s : State) : State :=
  let tm := s.tables
  match validate tm with
  | none => { s with tables := { tm with live := tm.staged, apply := none } }
  | some _ => { s with tables := { tm with apply := none } }

/-- The record of the adoption that these tables come to: APPLY_DONE with the changed-tables mask, or APPLY_REFUSED with the reason
(R106). -/
def adoptionRecord (tm : TableMemory) : EventBody :=
  match validate tm with
  | none => .applyDone (tm.staged.route != tm.live.route) (tm.staged.curve != tm.live.curve) (tm.staged.profile != tm.live.profile)
  | some reason => .applyRefused reason

/-- The record of an adoption made between two states of one instant, in which nothing but an adoption removes the pending apply record.
It follows the records the controller has made there (R106; log 35). -/
def recordAdoption (before after : State) : State :=
  if before.tables.apply.isSome && after.tables.apply.isNone then offerEvent (adoptionRecord before.tables) after else after

/-- A trigger of the pending apply record is met at this sample: adopt in IDLE and the ON states, defer in a transition (R104). -/
def meetApplyTrigger (s : State) : State :=
  match s.tables.apply with
  | none => s
  | some r =>
    if s.ctrl.mode.isTransition then { s with tables := { s.tables with apply := some { r with phase := .deferred } } }
    else adopt s

/-- Whether the pending apply record is DEFERRED. -/
def State.applyDeferred (s : State) : Bool :=
  match s.tables.apply with
  | some ⟨_, .deferred⟩ => true
  | _ => false

/-- Whether the pending apply record waits for a span start (R104). -/
def State.applyWaitsNow (s : State) : Bool :=
  match s.tables.apply with
  | some ⟨.now, .waiting⟩ => true
  | _ => false

/-- Whether the pending apply record waits for a mark of this song (R104). -/
def State.applyWaitsMark (s : State) (song : Byte) : Bool :=
  match s.tables.apply with
  | some ⟨.atMark, .waiting⟩ => true
  | some ⟨.atSong n, .waiting⟩ => n == song
  | _ => false

/-- The controller has left the transition: a DEFERRED record is released and adopted at once (R105). That its revalidation and the stamp
of its record are those of this instant, and not of the first sample after it, is the model's choice (log 37). -/
def releaseDeferred (s : State) : State :=
  if s.applyDeferred then adopt s else s

/-- Table memory's answer to a span start: the NOW trigger of a record made before it (R104). -/
def tableSpanStart (s : State) : State :=
  let owed := s.mixer.owedApply
  let s1 := { s with mixer := { s.mixer with owedApply := false } }
  if owed && s1.applyWaitsNow then meetApplyTrigger s1 else s1

/-- Table memory's answer to a mark (R104). -/
def tableMark (m : MarkReport) (s : State) : State :=
  if s.applyWaitsMark m.song then meetApplyTrigger s else s

end Sys2Proof.Machine
end

