-- ==== Sys2Proof/Machine/Control.lean ====
section
/-! DEFINITION. The failover controller (04): openings, failover, fades, cuts and reversals, the fade end, pending switch records, SWITCH
and AUTO decisions, revert and the panel. -/

namespace Sys2Proof.Machine

/-! ### The opening choice and withdrawal (R62, R69) -/

/-- The opening choice when port p has become ready in IDLE: schedule toward it, or retarget a start toward the other port to the
preferred port if that one is ready (R62). -/
def openingChoice (p : Port) (s : State) : State :=
  match s.ctrl.scheduled with
  | none => scheduleStart .opening p .opening s
  | some st =>
    if st.action = .opening ∧ st.target ≠ p ∧ s.ready s.preferred = true then
      { s with ctrl := { s.ctrl with scheduled := some { st with target := s.preferred } } }
    else s

/-- The opening choice as though port p had just become ready, if it is ready (R63, R69). -/
def openingRechoice (p : Port) (s : State) : State :=
  if s.ready p then openingChoice p s else s

/-- Withdrawal of the scheduled start, and what the controller then does by its state (R69). -/
def withdrawStart (s : State) : State :=
  match s.ctrl.scheduled with
  | none => s
  | some st =>
    let s1 := { s with ctrl := { s.ctrl with scheduled := none } }
    match s1.ctrl.mode with
    | .idle => openingRechoice st.target.other s1
    | .opening _ => s1
    | .on x => if s1.ready x then s1 else setDegraded s1
    | .fade x => if s1.ready x.other then s1 else setDegraded s1

/-! ### Starting a transition (R57 to R59, R68) -/

/-- A scheduled REVERSAL left at a fade end, or at a cut, becomes a scheduled FADE with the same cause and target (R61 step 5). -/
def convertReversal (s : State) : State :=
  match s.ctrl.scheduled with
  | some ⟨.reversal, target, cause⟩ => { s with ctrl := { s.ctrl with scheduled := some ⟨.fade, target, cause⟩ } }
  | _ => s

/-- The state a transition enters: ON_target at a cut, FADE_XY from ON_X, else OPENING toward the target (R58, R59). -/
def enteredMode (m : Mode) (target : Port) (spans : Nat) : Mode :=
  if spans = 0 then .on target
  else match m with
    | .on x => .fade x
    | _ => .opening target

/-- An opening, fade or cut toward a ready target begins at the next program sample (R58, R59). -/
def beginTransition (target : Port) (cause : SwitchCause) (s : State) : State :=
  let spans := s.live.fadeSpans cause
  let fromPort := s.ctrl.mode.onAir
  let aligned := decide (alignmentState s.align = .aligned)
  let s1 := { s with ctrl :=
    { s.ctrl with mode := enteredMode s.ctrl.mode target spans, q := 0, len := 32 * spans, aligned := aligned, sat := 0,
                  degraded := false, holdoff := 0 } }
  let s2 := offerEvent (.switchStart fromPort target cause aligned spans s1.outputPosition) s1
  if spans = 0 then convertReversal (offerEvent (.switchEnd target 0) s2) else startNotice s2

/-- The start sample of a scheduled OPEN or FADE start: withdrawn when its target is not ready, else begun (R58). -/
def beginScheduled (st : ScheduledStart) (s : State) : State :=
  if s.ready st.target then
    beginTransition st.target st.cause { s with ctrl := { s.ctrl with scheduled := none } }
  else withdrawStart s

/-- The start sample of a scheduled REVERSAL in FADE_XY: withdrawn when X is not ready, else the fade is turned: FADE_YX, q
mirrored to F - k, and SWITCH_REVERSED (R68). -/
def beginReversal (x : Port) (s : State) : State :=
  if s.ready x then
    let q := s.ctrl.len - s.ctrl.q
    offerEvent (.switchReversed x q)
      { s with ctrl := { s.ctrl with mode := .fade x.other, q := q, scheduled := none } }
  else withdrawStart s

/-- Whether a scheduled start can begin from a controller state: OPEN from IDLE, FADE from ON_other, REVERSAL from a fade whose
outgoing port is the target (R58, R68). -/
def startFits (m : Mode) (st : ScheduledStart) : Bool :=
  match st.action, m with
  | .opening, .idle => true
  | .fade, .on x => x == st.target.other
  | .reversal, .fade x => x == st.target
  | _, _ => false

/-- A scheduled start is taken at the span start just reported (R57, R58, R68). -/
def takeScheduled (s : State) : State :=
  match s.ctrl.scheduled with
  | none => s
  | some st =>
    if startFits s.ctrl.mode st then
      match st.action with
      | .opening => beginScheduled st s
      | .fade => beginScheduled st s
      | .reversal => beginReversal st.target s
    else s

/-! ### Pending switch records (R71) -/

/-- A pending switch record fires: a FADE start toward its target, or its cancellation when the target is not ready (R71). -/
def firePendingSwitch (r : PendingSwitch) (s : State) : State :=
  if s.ready r.target then
    beginTransition r.target r.cause { s with ctrl := { s.ctrl with pendingSwitch := none } }
  else cancelPendingSwitch s

/-- The pending switch record, when the controller is in ON_X with X its target's other port (R70, R71). -/
def State.armedSwitch (s : State) : Option PendingSwitch :=
  match s.ctrl.mode, s.ctrl.pendingSwitch with
  | .on x, some r => if r.target = x.other then some r else none
  | _, _ => none

/-- The NOW record that fires at a span start (R71). -/
def State.switchAtSpanStart (s : State) : Option PendingSwitch :=
  match s.armedSwitch with
  | some ⟨target, .now, cause⟩ => some ⟨target, .now, cause⟩
  | _ => none

/-- The record that fires at a mark reported for the port on air, of the song reported (R71). -/
def State.switchAtMark (s : State) (m : MarkReport) : Option PendingSwitch :=
  if s.ctrl.mode = .on m.port then
    match s.armedSwitch with
    | some ⟨target, .atMark, cause⟩ => some ⟨target, .atMark, cause⟩
    | some ⟨target, .atSong n, cause⟩ => if n = m.song then some ⟨target, .atSong n, cause⟩ else none
    | _ => none
  else none

/-- The controller's answer to a span start with its scheduled start (R57). -/
def answerScheduled (s : State) : State :=
  let owed := s.mixer.owedStart
  let s1 := { s with mixer := { s.mixer with owedStart := false } }
  if owed then takeScheduled s1 else s1

/-- The controller's answer to a span start with a NOW record (R71). -/
def answerNow (s : State) : State :=
  let owed := s.mixer.owedSwitch
  let s1 := { s with mixer := { s.mixer with owedSwitch := false } }
  match s1.switchAtSpanStart with
  | some r => if owed then firePendingSwitch r s1 else s1
  | none => s1

/-- The controller's answer to a span start: a scheduled start begins, or a NOW record fires (R92 step 1). -/
def controllerSpanStart (s : State) : State :=
  answerNow (answerScheduled s)

/-- The controller's answer to a mark (R71, R92 step 2). -/
def controllerMark (m : MarkReport) (s : State) : State :=
  match s.switchAtMark m with
  | some r => firePendingSwitch r s
  | none => s

/-! ### Failover and degraded state (R64 to R67) -/

/-- A failover toward port y is scheduled; any pending switch record is cancelled (R64, R66). -/
def scheduleFailover (y : Port) (s : State) : State :=
  scheduleStart .fade y .failure (cancelPendingSwitch s)

/-- The degraded state is resolved toward port y, unless a start is already scheduled (R66). -/
def resolveDegraded (y : Port) (s : State) : State :=
  if s.ctrl.scheduled.isSome then s else scheduleFailover y s

/-- The on-air port x has failed in ON_X (R64). -/
def onAirFailed (x : Port) (s : State) : State :=
  if s.ctrl.auto && s.ready x.other then resolveDegraded x.other s else setDegraded s

/-- The incoming port of FADE_XY has failed (R67). A reversal already scheduled stands (log 18). -/
def incomingFailed (x : Port) (s : State) : State :=
  if s.ctrl.scheduled.isSome then s
  else if s.ctrl.auto && s.ready x then scheduleStart .reversal x .failure s
  else setDegraded s

/-- An opening is abandoned: back to IDLE with SWITCH_ABANDONED, the abandon notice, the release of a deferred adoption and the
opening choice for the other port (R63, R105). A start that this choice schedules is taken at the next span start (R57), whose first
sample is the next one made: that it is then mixed in OPENING, and not in IDLE as R63 and R86 say, is the model's choice (log 36). -/
def abandonOpening (x : Port) (s : State) : State :=
  let s1 := { s with ctrl := { s.ctrl with mode := .idle, q := 0, len := 0 } }
  let s2 := abandonNotice (offerEvent (.switchAbandoned x) s1)
  openingRechoice x.other (recordAdoption s2 (releaseDeferred s2))

/-- Whether a scheduled start of this action waits toward port p. -/
def State.startWaits (s : State) (a : StartAction) (p : Port) : Bool :=
  match s.ctrl.scheduled with
  | some st => st.action == a && st.target == p
  | none => false

/-- The controller's response to a verdict change of port p, by its state (4.11). -/
def respondVerdict (p : Port) (old new : Verdict) (s : State) : State :=
  match s.ctrl.mode with
  | .idle =>
    if new = .failed then (if s.startWaits .opening p then withdrawStart s else s)
    else if new.ready && !old.ready then openingChoice p s
    else s
  | .opening x => if p = x ∧ new = .failed then abandonOpening x s else s
  | .on x =>
    if p = x then
      (if new = .failed then onAirFailed x s else if new.ready then clearDegraded s else s)
    else if new = .failed then (if s.startWaits .fade p then withdrawStart s else s)
    else if new = .good ∧ s.ctrl.degraded = true ∧ s.ctrl.auto = true then resolveDegraded p s
    else s
  | .fade x =>
    if p = x then (if new = .failed ∧ s.startWaits .reversal x = true then withdrawStart s else s)
    else if new = .failed then incomingFailed x s
    else if new = .good then clearDegraded s
    else s

/-! ### Revert (R75, R76) -/

/-- Remove a pending switch record whose cause is REVERT, with PENDING_CANCELLED (R75). -/
def cancelRevert (s : State) : State :=
  match s.ctrl.pendingSwitch with
  | some ⟨_, _, .revert⟩ => cancelPendingSwitch s
  | _ => s

/-- The hold-off count starts again, and a revert record is removed (R75). -/
def resetHoldoff (s : State) : State :=
  cancelRevert { s with ctrl := { s.ctrl with holdoff := 0 } }

/-- The revert conditions (R75). -/
def revertConditions (s : State) : Bool :=
  decide (s.ctrl.mode = .on s.preferred.other) && s.live.revertAtMark && s.ctrl.scheduled.isNone

/-- The controller takes a verdict change: its response by state, then the end of the hold-off count when the preferred port leaves
GOOD (R75). Neither R64 nor R75 orders the two: DEGRADED before PENDING_CANCELLED of a revert record is the model's choice (log 13). -/
def takeVerdictChange (p : Port) (old new : Verdict) (s : State) : State :=
  let s1 := respondVerdict p old new s
  if p = s1.preferred ∧ old = .good then resetHoldoff s1 else s1

/-- Whether a revert record is to be created: the count has reached HOLDOFF and no pending switch record exists (R76). -/
def revertDue (s : State) : Bool :=
  decide (s.live.holdoff ≤ s.ctrl.holdoff) && s.ctrl.pendingSwitch.isNone

/-- The controller takes a window notice (R36, R75, R76). -/
def takeNotice (p : Port) (v : Verdict) (s : State) : State :=
  if p = s.preferred then
    if revertConditions s ∧ v = .good then
      let s1 := { s with ctrl := { s.ctrl with holdoff := satAdd 65535 s.ctrl.holdoff 1 } }
      if revertDue s1 then createPendingSwitch ⟨p, .atMark, .revert⟩ s1 else s1
    else resetHoldoff s
  else s

/-! ### The fade end (R61) -/

/-- Step 6 of the fade end: the new on-air port's verdict is examined (R61). -/
def examineOnAir (y : Port) (s : State) : State :=
  if s.ready y then clearDegraded s
  else if s.ctrl.scheduled.isSome then s
  else if s.ctrl.auto && s.ready y.other then scheduleFailover y.other s
  else setDegraded s

/-- The fade end of a transition toward y (R61). A deferred adoption is made at step 3, where R105 has it made at once (log 37). Its
record follows those of step 6: the sample that ends the fade places it (`makeSample`, R106). -/
def endTransition (y : Port) (s : State) : State :=
  let s1 := { s with ctrl := { s.ctrl with mode := .on y, q := 0, len := 0 } }
  let s2 := offerEvent (.switchEnd y s.ctrl.sat) s1
  let s3 := releaseDeferred (endNotice s2)
  let s4 := { s3 with ctrl := { s3.ctrl with holdoff := 0 } }
  examineOnAir y (convertReversal s4)

/-- Whether the fade position has reached the fade length of a transition (R60, R92 step 5). -/
def fadeEndDue (s : State) : Bool :=
  s.ctrl.mode.isTransition && s.ctrl.q == s.ctrl.len

/-- The controller handles a fade end (R61). -/
def fadeEnd (s : State) : State :=
  match s.ctrl.mode.target with
  | none => s
  | some y => endTransition y s

/-! ### SWITCH and AUTO (R72 to R74) -/

/-- The controller decides a SWITCH request toward port t (R72). -/
def decideSwitch (t : Port) (trigger : Trigger) (s : State) : State × Status :=
  if s.ctrl.mode = .on t then (s, .already)
  else if !s.ready t then (s, .notReady)
  else if s.ctrl.scheduled.isSome then (s, .busy)
  else match s.ctrl.mode with
    | .idle => (s, .busy)
    | .opening x => (s, if x = t then .already else .busy)
    | .on _ => (createPendingSwitch ⟨t, trigger, .request⟩ s, .pending)
    | .fade x => if x = t then (scheduleStart .reversal t .request s, .ok) else (s, .already)

/-- AUTO passes to set: a degraded ON_X with a ready other port is resolved (R66, R74). -/
def setAuto (s : State) : State :=
  let s1 := { s with ctrl := { s.ctrl with auto := true } }
  match s.ctrl.mode with
  | .on x => if !s.ctrl.auto && s.ctrl.degraded && s.ready x.other then resolveDegraded x.other s1 else s1
  | _ => s1

/-! ### Panel contacts (R77, R78) -/

/-- A debounce count after a sampling (R77). -/
def debounceAfter (closed : Bool) (n : Nat) : Nat :=
  if closed then satAdd Config.pressSamplings n 1 else 0

/-- Whether a contact is pressed at a sampling: its count becomes 4 (R77). -/
def pressedAt (closed : Bool) (before : Nat) : Bool :=
  closed && before + 1 == Config.pressSamplings

/-- Judge a press of FORCE_t (R78): whether it is refused, and the state after what it does. -/
def judgePress (t : Port) (s : State) : State × Bool :=
  if 1 ≤ s.ctrl.debounce.get t.other then (s, true)
  else if s.ctrl.mode = .on t then (s, true)
  else if !s.ready t then (s, true)
  else if s.ctrl.scheduled.isSome then (s, true)
  else match s.ctrl.mode with
    | .idle => (s, true)
    | .opening _ => (s, true)
    | .fade x => if x = t then (scheduleStart .reversal t .panel s, false) else (s, true)
    | .on _ => (createPendingSwitch ⟨t, .now, .panel⟩ s, false)

/-- A press: judged, then recorded with its refused flag (R78). -/
def press (t : Port) (s : State) : State :=
  let r := judgePress t s
  offerEvent (.panel t r.2) r.1

/-- Sample both contacts: both counts are updated before either press is judged (R77). -/
def samplePanel (forceA forceB : Bool) (s : State) : State :=
  let before := s.ctrl.debounce
  let counts : PerPort Nat := ⟨debounceAfter forceA before.a, debounceAfter forceB before.b⟩
  let s1 := { s with ctrl := { s.ctrl with debounce := counts },
                     clock := { s.clock with panelDone := true },
                     pins := { s.pins with forceA := forceA, forceB := forceB } }
  let s2 := if pressedAt forceA before.a then press .a s1 else s1
  if pressedAt forceB before.b then press .b s2 else s2

end Sys2Proof.Machine
end

