-- ==== Sys2Proof/Machine/Splice.lean ====
section
/-! DEFINITION. The splice mixer (05): routing, weights, curves, the mix, marks at the output, and the steps of one program sample. -/

namespace Sys2Proof.Machine

/-! ### Routing (R82, R83) -/

/-- The class that governs a channel: DEFAULT is replaced by DEFAULT_CLASS (R82). -/
def resolveClass (t : Tables) (c : RouteClass) : RouteClass :=
  match c with
  | .byDefault => t.defaultClass
  | c => c

/-- The row of 64 samples that a port's ring gives at a ring sample time, or none when its slot is EMPTY (R53). -/
def State.ringRow (s : State) (p : Port) : Option (List Sample) :=
  let t := s.ringTime p
  match s.ringSlot p t with
  | .empty => none
  | .valid _ audio => some ((audio.drop (64 * slotOffset t)).take 64)
  | .predicted _ audio => some ((audio.drop (64 * slotOffset t)).take 64)

/-- A source sample: 0 when there is no slot, when the slot is the port's pilot slot, and when the ring slot is EMPTY (R83). -/
def sourceSample (pilot : Option Nat) (slot : Option (Fin 64)) (row : Option (List Sample)) : Int :=
  match slot, row with
  | some k, some samples => if pilot = some k.val then 0 else (samples.getD k.val 0).toInt
  | _, _ => 0

/-! ### Curves and weights (R84, R85, R89) -/

/-- Unity gain. -/
def unity : Int := 32768

/-- Point i of curve n of the live tables. -/
def Tables.curvePoint (t : Tables) (n i : Nat) : Int :=
  (t.curve.getD (65 * n + i) 0 : Nat)

/-- C(p): curve n evaluated at fade position p of a transition of length len (R89). -/
def evalCurve (t : Tables) (n len p : Nat) : Int :=
  let x := 64 * p
  let idx := x / len
  let frac := x % len
  if idx = 64 then unity
  else t.curvePoint n idx + (t.curvePoint n (idx + 1) - t.curvePoint n idx) * (frac : Int) / (len : Int)

/-- The curve of a FOLLOW channel: the entry's with the aligned flag set, else UNALIGNED_CURVE (R85). -/
def chosenCurve (t : Tables) (aligned : Bool) (e : RouteEntry) : Nat :=
  if aligned then e.curve.val else t.unalignedCurve

/-- A pair of weights with the first on port x and the second on the other port. -/
def weightsFor (x : Port) (wx wy : Int) : Int × Int :=
  match x with
  | .a => (wx, wy)
  | .b => (wy, wx)

/-- The weights wA and wB of a channel by its resolved class and the controller (R84). -/
def weights (t : Tables) (c : Controller) (cls : RouteClass) (curve : Nat) : Int × Int :=
  match cls with
  | .pinA => (unity, 0)
  | .pinB => (0, unity)
  | .mute => (0, 0)
  | .byDefault => (0, 0)
  | .cut => match c.mode with
    | .idle => (0, 0)
    | .opening x => weightsFor x unity 0
    | .on x => weightsFor x unity 0
    | .fade x => weightsFor x 0 unity
  | .follow => match c.mode with
    | .idle => (0, 0)
    | .opening x => weightsFor x (evalCurve t curve c.len c.q) 0
    | .on x => weightsFor x unity 0
    | .fade x => weightsFor x (evalCurve t curve c.len (c.len - c.q)) (evalCurve t curve c.len c.q)

/-! ### The mix (R90, R91) -/

/-- The accumulator rounded to the nearest integer, a half toward plus infinity (R90 step 2). -/
def roundMix (acc : Int) : Int :=
  (acc + 16384) / 32768

/-- Whether a rounded sample lies outside the 24-bit range (R90 step 3). -/
def saturates (y : Int) : Bool :=
  decide (8388607 < y ∨ y < -8388608)

/-- A rounded sample limited to the 24-bit range (R90 step 3). -/
def limitSample (y : Int) : Sample :=
  BitVec.ofInt 24 (max (-8388608) (min 8388607 y))

/-- The exact sum a wA + b wB of one channel (R83, R84, R90 step 1). -/
def channelSum (t : Tables) (c : Controller) (rowA rowB : Option (List Sample)) (e : RouteEntry) : Int :=
  let w := weights t c (resolveClass t e.cls) (chosenCurve t c.aligned e)
  sourceSample (t.pilot .a) e.slotA rowA * w.1 + sourceSample (t.pilot .b) e.slotB rowB * w.2

/-- The rounded sums of all output channels, in channel order (R90). -/
def mixedRow (s : State) : List Int :=
  s.live.route.map fun e => roundMix (channelSum s.live s.ctrl (s.ringRow .a) (s.ringRow .b) e)

/-- Make one row of program samples: limited to 24 bits, with each saturated sample counted (R90, R91, R96). -/
def mixSample (s : State) : State :=
  let row := mixedRow s
  { s with mixer := { s.mixer with rows := s.mixer.rows ++ [row.map limitSample] },
           ctrl := { s.ctrl with sat := satAdd 65535 s.ctrl.sat (row.countP saturates) } }

/-! ### Marks (R93, R95) -/

/-- The mark port (R93). -/
def Mode.markPort : Mode → Option Port
  | .idle => none
  | .opening x => some x
  | .on x => some x
  | .fade x => some x

/-- The mark that the next program sample reports, if the sample read is at the mark offset of a VALID slot with MARK set (R93). -/
def State.markNow (s : State) : Option MarkReport :=
  match s.ctrl.mode.markPort with
  | none => none
  | some x =>
    let t := s.ringTime x
    match s.ringSlot x t with
    | .valid m _ => if m.mark ∧ slotOffset t = m.markOffset then some ⟨x, m.song⟩ else none
    | _ => none

/-- The mark report of the sample: one already answered ahead of it, or the one read now (log 3). -/
def State.sampleMark (s : State) : Option MarkReport :=
  match s.mixer.earlyMark with
  | some m => some m
  | none => s.markNow

/-- The program span keeps the offset of its first mark (R95). -/
def noteMark (s : State) : State :=
  match s.mixer.firstMark with
  | some _ => s
  | none => { s with mixer := { s.mixer with firstMark := some s.clock.made } }

/-- The answers to a mark: the controller's, then table memory's (R92 step 2; log 13). -/
def answerMark (m : MarkReport) (s : State) : State :=
  tableMark m (controllerMark m (noteMark s))

/-! ### One program sample (R92) -/

/-- Step 1: the span start is reported at the first sample of a program span (log 13 gives the order of the two answers). -/
def sampleStep1 (s : State) : State :=
  if s.clock.made = 0 then tableSpanStart (controllerSpanStart s) else s

/-- Step 2: a mark is read and answered. -/
def sampleStep2 (s : State) : State :=
  let mark := s.sampleMark
  let s1 := { s with mixer := { s.mixer with earlyMark := none } }
  match mark with
  | some m => answerMark m s1
  | none => s1

/-- The program span's position record is set at its first sample, from the state that sample is mixed in (R54; log 14). -/
def sampleRestamp (s : State) : State :=
  if s.clock.made = 0 then restamp s else s

/-- Step 3: the fade position advances in a transition state (R60). -/
def sampleStep3 (s : State) : State :=
  if s.ctrl.mode.isTransition then { s with ctrl := { s.ctrl with q := s.ctrl.q + 1 } } else s

/-- Step 5: the fade end, when the fade position equals the fade length. -/
def sampleStep5 (s : State) : State :=
  if fadeEndDue s then fadeEnd s else s

/-- One more sample of the program span is made. -/
def countSample (s : State) : State :=
  { s with clock := { s.clock with made := s.clock.made + 1 } }

/-- The program span of this period, from what the mixer hands over (R18, R96). -/
def State.programSpan (s : State) : ProgramSpan :=
  let number := windowNumber s.clock.window
  if 0 < s.prog.countdown then .sync number
  else .data number s.prog.heartbeat s.mixer.firstMark s.align.position s.mixer.rows

/-- The program port sends its span when the 32 samples are made: SYNC while the countdown is above 0, which then decreases, else
DATA, after which the heartbeat advances (R18, R96). -/
def sendProgramSpan (s : State) : State :=
  let prog : ProgramPort :=
    if 0 < s.prog.countdown then { s.prog with countdown := s.prog.countdown - 1 }
    else { s.prog with heartbeat := s.prog.heartbeat + 1 }
  { s with sentProgram := some s.programSpan, prog := prog, mixer := { s.mixer with rows := [], firstMark := none } }

/-- The span is handed over with its last sample (R96). -/
def handOver (s : State) : State :=
  if s.clock.made = Config.spanLength then sendProgramSpan s else s

/-- The state of a sample before its step 5 (R92). -/
def sampleMixed (s : State) : State :=
  mixSample (sampleStep3 (sampleRestamp (sampleStep2 (sampleStep1 s))))

/-- One program sample: its five steps (R92), the record of an adoption made in them, after any record the controller made at this sample
(R106), then the hand-over of a finished span (R96). -/
def makeSample (s : State) : State :=
  handOver (countSample (recordAdoption s (sampleStep5 (sampleMixed s))))

/-- That many program samples are made, one after the other (R92). -/
def makeSamples : Nat → State → State
  | 0, s => s
  | n + 1, s => makeSamples n (makeSample s)

end Sys2Proof.Machine
end

