-- ==== Sys2Proof/Machine/Operands.lean ====
section
/-! DEFINITION. The operand forms of the requests: coded operands, table entries, and the index arithmetic of READ and WRITE (R101, R131, R158). -/

namespace Sys2Proof.Machine

/-- A port operand: A or B, and 0xFF names none (R158). -/
def portOfCode (b : Byte) : Option Port :=
  if b = 0 then some .a else if b = 1 then some .b else none

/-- A table operand (11.2). -/
def tableOfCode (b : Byte) : Option TableName :=
  if b = 0 then some .route else if b = 1 then some .curve else if b = 2 then some .profile else none

/-- A trigger operand with its song, which only AT_SONG reads (R158). -/
def triggerOfCode (b song : Byte) : Option Trigger :=
  if b = 0 then some .now else if b = 1 then some .atMark else if b = 2 then some (.atSong song) else none

/-- A lock mode operand (11.2). -/
def lockModeOfCode (b : Byte) : Option LockMode :=
  if b = 0 then some .openMode else if b = 1 then some .line else if b = 2 then some .latched else none

/-- A flag operand: 0 or 1. -/
def flagOfCode (b : Byte) : Option Bool :=
  if b = 0 then some false else if b = 1 then some true else none

/-- A lock code operand: 0..7. -/
def lockCodeOf (b : Byte) : Option (Fin 8) :=
  if h : b.toNat < 8 then some ⟨b.toNat, h⟩ else none

/-- The record a LOCK request asks for, or none when a field is out of range (R116). -/
def lockRecordOf (code complement mode : Byte) : Option LockRecord :=
  match lockCodeOf code, flagOfCode complement, lockModeOfCode mode with
  | some c, some k, some m => some ⟨c, k, m⟩
  | _, _, _ => none

/-- A slot byte: 0..63, or 0xFF for NONE; 64..254 are out of range (11.3). -/
def slotOfByte (b : Byte) : Option (Option (Fin 64)) :=
  if h : b.toNat < 64 then some (some ⟨b.toNat, h⟩) else if b = 0xFF then some none else none

/-- A curve byte: 0..3. -/
def curveOfByte (b : Byte) : Option (Fin 4) :=
  if h : b.toNat < 4 then some ⟨b.toNat, h⟩ else none

/-- A ROUTE entry from its 4 bytes, or none when a field is out of range (11.3, R100). -/
def routeEntryOf (cls slotA slotB curve : Byte) : Option RouteEntry :=
  match classOfCode cls.toNat, slotOfByte slotA, slotOfByte slotB, curveOfByte curve with
  | some c, some a, some b, some k => some ⟨c, a, b, k⟩
  | _, _, _, _ => none

/-- The ROUTE entries of a WRITE, or none when a field of one is out of range. -/
def routeEntriesOf : List Byte → Option (List RouteEntry)
  | c :: a :: b :: k :: rest =>
    match routeEntryOf c a b k, routeEntriesOf rest with
    | some e, some es => some (e :: es)
    | _, _ => none
  | _ => some []

/-- The two-byte values of a WRITE. -/
def wordsOf : List Byte → List Nat
  | hi :: lo :: rest => natOfBytes [hi, lo] :: wordsOf rest
  | _ => []

/-- The index after i, wrapping to 0 past the table's last index (R101, R131). -/
def nextIndex (t : TableName) (i : Nat) : Nat :=
  if i = t.lastIndex then 0 else i + 1

/-- The n consecutive indices from the first one, with the wrap (R101, R131). -/
def indicesFrom (t : TableName) : Nat → Nat → List Nat
  | _, 0 => []
  | i, n + 1 => i :: indicesFrom t (nextIndex t i) n

/-- Write entries at consecutive indices (R101). -/
def writeAt {α : Type} (table : List α) : List Nat → List α → List α
  | i :: is, v :: vs => writeAt (table.set i v) is vs
  | _, _ => table

/-- The song byte of a pending record: the song of AT_SONG; for the other triggers no rule says what it holds, and it is the free
value given (log 12). -/
def songByte (free : Byte) : Trigger → Byte
  | .now => free
  | .atMark => free
  | .atSong n => n

end Sys2Proof.Machine
end

