-- ==== Sys2Proof/Machine/Deframe.lean ====
section
/-! DEFINITION. The deframer and the request queue of a show port (08, R121 to R125). -/

namespace Sys2Proof.Machine

/-- What a deframer gives besides its own next state: a management error, or a complete message. -/
inductive DeframerOut where
  | error (k : MgmtErrorKind)
  | message (m : List Byte)
deriving DecidableEq, Repr

/-- The deframer with no message: the body emptied, no message in progress, age 0, in the given state (R121). -/
def Deframer.emptied (d : Deframer) (mode : DeframerMode) : Deframer :=
  { d with mode := mode, body := [], busy := false, age := 0 }

/-- A byte is appended to the body; the one that would make it 97 bytes long raises LONG instead (R121). -/
def appendByte (d : Deframer) (b : Byte) : Deframer × Option DeframerOut :=
  if d.body.length < Config.messageBytes then ({ d with mode := .body, body := d.body ++ [b], busy := true }, none)
  else (d.emptied .hunt, some (.error .long))

/-- A separator in BODY closes the body (R122). -/
def closeBody (d : Deframer) : Deframer × Option DeframerOut :=
  match d.body with
  | [] => (d.emptied .body, none)
  | [_] => (d.emptied .body, some (.error .short))
  | body => (d.emptied .body, some (.message body))

/-- One lane byte (R121). -/
def deframeByte (d : Deframer) (b : Byte) : Deframer × Option DeframerOut :=
  match d.mode with
  | .hunt => if b = 0xF4 then (d.emptied .body, none) else (d, none)
  | .body =>
    if b = 0xF4 then closeBody d
    else if b = 0xF5 then ({ d with mode := .escape, busy := true }, none)
    else appendByte d b
  | .escape =>
    if b = 0x01 then appendByte d 0xF4
    else if b = 0x02 then appendByte d 0xF5
    else if b = 0xF4 then (d.emptied .body, some (.error .escape))
    else (d.emptied .hunt, some (.error .escape))

/-- A break of the lane stream: HUNT, with BROKEN when a message was in progress (R123). -/
def breakLane (d : Deframer) : Deframer × Option DeframerOut :=
  (d.emptied .hunt, if d.busy then some (.error .broken) else none)

/-- A broken-message indication also sets the lane continuity absent (R123). -/
def indicateBroken (d : Deframer) : Deframer × Option DeframerOut :=
  let r := breakLane d
  ({ r.1 with continuity := none }, r.2)

/-- Whether a span's number breaks the lane stream (R123). -/
def laneBreaks (d : Deframer) (number : SpanNumber) : Bool :=
  match d.continuity with
  | some n => number != n + 1
  | none => d.busy && d.mode != .hunt

/-- The comparison of a handed span's number with the lane continuity, which then takes the number (R121, R123). -/
def compareContinuity (d : Deframer) (number : SpanNumber) : Deframer × Option DeframerOut :=
  let r := if laneBreaks d number then breakLane d else (d, none)
  ({ r.1 with continuity := some number }, r.2)

/-- The age of a message in progress, after a window's bytes and indications (R124). -/
def ageStep (d : Deframer) : Deframer × Option DeframerOut :=
  if d.busy then
    if d.age + 1 < Config.messageAge then ({ d with age := d.age + 1 }, none) else (d.emptied .hunt, some (.error .timeout))
  else (d, none)

/-- A complete message is offered to the request queue: it enters at the back, with WAIT following the fill, or is dropped when the
queue holds 4 (R125). -/
def offerMessage (p : Port) (m : List Byte) (s : State) : State :=
  let port := s.ports.get p
  if port.requests.length < Config.requestDepth then
    s.setPort p { port with requests := port.requests ++ [m], wait := waitAfterEntry port.wait (port.requests.length + 1) }
  else raiseMgmtError p .dropped s

/-- What a deframer gave reaches the port: an error is counted and recorded, a message is offered. -/
def applyOut (p : Port) (out : Option DeframerOut) (s : State) : State :=
  match out with
  | none => s
  | some (.error k) => raiseMgmtError p k s
  | some (.message m) => offerMessage p m s

/-- The port's deframer takes a step, and what it gave reaches the port. -/
def stepDeframer (p : Port) (f : Deframer → Deframer × Option DeframerOut) (s : State) : State :=
  let r := f (s.ports.get p).deframer
  applyOut p r.2 (s.setDeframer p r.1)

/-- A span's lane is handed to the deframer: the number is compared, then each byte is taken in order (R121). -/
def handLane (p : Port) (number : SpanNumber) (lane : List Byte) (s : State) : State :=
  lane.foldl (fun t b => stepDeframer p (deframeByte · b) t) (stepDeframer p (compareContinuity · number) s)

end Sys2Proof.Machine
end

