-- ==== Sys2Proof/Machine/Health.lean ====
section
/-! DEFINITION. The health monitor (02): the faults of a window, the score, the verdict machine, the forced failure, and what it hands on. -/

namespace Sys2Proof.Machine

/-! ### The seven faults (R23 to R28) -/

/-- The valid DATA span of a window, when it took one. -/
def WindowReport.dataSpan (r : WindowReport) : Option ForwardSpan :=
  match r.outcome with
  | .valid f => if f.kind = .data then some f else none
  | _ => none

/-- Whether a window reports RUN clear: a valid IDLE span, or a valid DATA span with RUN clear (R26). -/
def WindowReport.reportsStopped (r : WindowReport) : Bool :=
  match r.outcome with
  | .valid f => f.kind == .idle || (f.kind == .data && !f.run)
  | _ => false

/-- SEQUENCE: a valid DATA or IDLE span whose number did not match (R24). -/
def raisesSequence (r : WindowReport) : Bool :=
  match r.outcome with
  | .valid f => (f.kind == .data || f.kind == .idle) && r.sequence == .mismatched
  | _ => false

/-- STALL: a valid DATA span that repeats the last heartbeat (R25). -/
def raisesStall (r : WindowReport) (own : HealthRecord) : Bool :=
  match r.dataSpan, own.lastData with
  | some f, some e => f.heartbeat == e.heartbeat
  | _, _ => false

/-- STOPPED: stopped here while the other rig runs past the last running position by more than the grace (R26). -/
def raisesStopped (r : WindowReport) (own other : HealthRecord) (grace : Nat) : Bool :=
  match own.lastRunning, other.lastData with
  | some here, some e =>
    r.reportsStopped && e.run && decide (0 < signed40 (e.position - (here + BitVec.ofNat 40 (32 * grace))))
  | _, _ => false

/-- The show position that playing on from an entry gives at window w (R27; also the prediction of R14). -/
def playedOn (position : Position) (since w : WindowIndex) : Position :=
  position + windowTime (w - since)

/-- JUMP: a running DATA span away from where the last running one leads (R27). -/
def raisesJump (r : WindowReport) (own : HealthRecord) : Bool :=
  match r.dataSpan, own.lastData with
  | some f, some e => f.run && e.run && f.position != playedOn e.position e.window r.window
  | _, _ => false

/-- The expected pilot pattern of a span: (32 n + j) modulo 2^24 for sample j of span number n (R28). -/
def pilotPattern (n : SpanNumber) : List Sample :=
  (List.range Config.spanLength).map fun j => BitVec.ofNat 24 (32 * n.toNat + j)

/-- PILOT: the pilot samples differ from the pattern of the number the span carries (R28). -/
def raisesPilot (r : WindowReport) : Bool :=
  match r.dataSpan, r.pilot with
  | some f, some samples => samples != pilotPattern f.number
  | _, _ => false

/-- Whether a window raises a fault kind, decided from the report and the records as they stood before it (2.3). -/
def raisesFault (r : WindowReport) (own other : HealthRecord) (grace : Nat) : FaultKind → Bool
  | .absent => r.outcome == .absent
  | .check => match r.outcome with
    | .check _ => true
    | _ => false
  | .sequence => raisesSequence r
  | .stall => raisesStall r own
  | .stopped => raisesStopped r own other grace
  | .jump => raisesJump r own
  | .pilot => raisesPilot r

/-- The seven kinds in the order that breaks ties (R31). -/
def faultOrder : List FaultKind :=
  [.absent, .check, .sequence, .stall, .stopped, .jump, .pilot]

/-- The faults a window raises (2.3). -/
def raisedFaults (r : WindowReport) (own other : HealthRecord) (grace : Nat) : List FaultKind :=
  faultOrder.filter (raisesFault r own other grace)

/-! ### Score, cause and verdict (R29 to R33) -/

/-- The running entries after a window (R29). -/
def updateEntries (r : WindowReport) (h : HealthRecord) : HealthRecord :=
  match r.dataSpan with
  | some f =>
    { h with lastData := some ⟨r.window, f.position, f.run, f.heartbeat⟩,
             lastRunning := if f.run then some f.position else h.lastRunning }
  | none => h

/-- The sum of the weights of the raised faults (R30). -/
def faultSum (t : Tables) (faults : List FaultKind) : Nat :=
  (faults.map t.weight).sum

/-- The score after a window (R30). -/
def scoreAfter (decay sum score : Nat) : Nat :=
  if 0 < sum then min 255 (score + sum) else score - decay

/-- The first fault of largest weight, among those of nonzero weight (R31). -/
def heaviestFault (t : Tables) (faults : List FaultKind) : HealthCause :=
  faults.foldl
    (fun cause k =>
      match cause with
      | .fault best => if t.weight best < t.weight k then .fault k else cause
      | _ => if 0 < t.weight k then .fault k else cause)
    .noCause

/-- The verdict and clean count after a window, from the score after it (R32, R33). -/
def verdictAfter (t : Tables) (sum score : Nat) (v : Verdict) (clean : Nat) : Verdict × Nat :=
  match v with
  | .good => (if t.tFail ≤ score then .failed else if t.tWarn ≤ score then .suspect else .good, clean)
  | .suspect => (if t.tFail ≤ score then .failed else if t.tWarn ≤ score then .suspect else .good, clean)
  | .failed => if score ≤ t.tOk then (.recovering, 0) else (.failed, clean)
  | .recovering =>
    if 0 < sum then (.failed, clean)
    else
      let n := satAdd 255 clean 1
      (if t.qOk ≤ n then .good else .recovering, n)

/-- A port's health record after an evaluated window (R29 to R33). -/
def evaluated (t : Tables) (r : WindowReport) (own other : HealthRecord) : HealthRecord :=
  let faults := raisedFaults r own other t.stopGrace
  let sum := faultSum t faults
  let score := scoreAfter t.decay sum own.score
  let v := verdictAfter t sum score own.verdict own.clean
  { updateEntries r own with
      score := score, verdict := v.1, clean := v.2,
      cause := if v.1 = own.verdict then own.cause else heaviestFault t faults }

/-- The record at a lock entry (R22). -/
def lockEntry (h : HealthRecord) : HealthRecord :=
  { h with score := 255, verdict := .failed, clean := 0, lockView := true, lastData := none, lastRunning := none }

/-- The record at a forced failure by a receiver that enters this state (R34). -/
def forcedFailure (rx : RxState) (h : HealthRecord) : HealthRecord :=
  { h with score := 255, verdict := .failed, cause := if rx = .standby then .standby else .notLocked, lockView := false,
           lastData := none, lastRunning := none }

/-! ### Taking a report (R21, R35, R36) -/

/-- Write a port's record. A changed verdict places VERDICT and is then handed to the controller (R35). -/
def handVerdict (p : Port) (h : HealthRecord) (s : State) : State :=
  let old := (s.health.get p).verdict
  let s1 := s.setHealth p h
  if h.verdict = old then s1
  else takeVerdictChange p old h.verdict (offerEvent (.verdict p h.verdict h.cause h.score) s1)

/-- Evaluate a window: the record, the verdict change, then the window notice (R21, R35, R36). -/
def evaluateWindow (p : Port) (r : WindowReport) (s : State) : State :=
  let h := evaluated s.live r (s.health.get p) (s.health.get p.other)
  takeNotice p h.verdict (handVerdict p h s)

/-- The health monitor takes a window report with the receiver change of the same window close, as one event (R21). -/
def takeHealthReport (p : Port) (r : WindowReport) (s : State) : State :=
  match r.rx with
  | .locked => evaluateWindow p r (if r.changed then s.setHealth p (lockEntry (s.health.get p)) else s)
  | .down => if r.changed && (s.health.get p).lockView then handVerdict p (forcedFailure r.rx (s.health.get p)) s else s
  | .training => if r.changed && (s.health.get p).lockView then handVerdict p (forcedFailure r.rx (s.health.get p)) s else s
  | .standby => if r.changed && (s.health.get p).lockView then handVerdict p (forcedFailure r.rx (s.health.get p)) s else s

end Sys2Proof.Machine
end

