-- ==== Sys2Proof/Machine/Ports.lean ====
section
/-! DEFINITION. The show ports (01): the elastic store, the receiver, the delay ring, the window close in its five steps, and return spans. -/

namespace Sys2Proof.Machine

/-! ### Elastic store (R4, R5) -/

/-- A completed span enters the elastic store; the oldest of two held spans is dropped first, as an overrun (R4). -/
def enterStore (bytes : List Byte) (port : ShowPort) : ShowPort :=
  if port.store.length < Config.elasticDepth then { port with store := port.store ++ [bytes] }
  else { port with store := port.store.drop 1 ++ [bytes],
                   counters := { port.counters with overruns := countUp port.counters.overruns } }

/-- The outcome of the window that takes the oldest held span, or of the absent window (R5). -/
def windowOutcome (store : List (List Byte)) : WindowOutcome :=
  match store with
  | [] => .absent
  | bytes :: _ => judgeSpan bytes

/-! ### Receiver (R6 to R10) -/

/-- The absent run after a window's outcome (R6). -/
def absentRunAfter (o : WindowOutcome) (n : Nat) : Nat :=
  match o with
  | .absent => satAdd 255 n 1
  | _ => 0

/-- The receiver state and sync count after a window, from the state and sync count before it and the absent run after it
(R7 to R10). -/
def rxAfter (t : Tables) (rx : RxState) (sync absentRun : Nat) (o : WindowOutcome) : RxState × Nat :=
  match rx with
  | .down => match o with
    | .valid f => if f.kind = .sync then (.training, 1) else (.down, sync)
    | _ => (.down, sync)
  | .training => match o with
    | .absent => (.down, 0)
    | .check _ => (.training, 0)
    | .valid f => match f.kind with
      | .sync => (.training, satAdd 255 sync 1)
      | .standby => (.training, 0)
      | .data => if t.lSync ≤ sync then (.locked, 0) else (.training, 0)
      | .idle => if t.lSync ≤ sync then (.locked, 0) else (.training, 0)
  | .locked => match o with
    | .absent => if t.nDown ≤ absentRun then (.down, sync) else (.locked, sync)
    | .check _ => (.locked, sync)
    | .valid f => match f.kind with
      | .sync => (.training, 1)
      | .standby => (.standby, sync)
      | .data => (.locked, sync)
      | .idle => (.locked, sync)
  | .standby => match o with
    | .absent => if t.nDown ≤ absentRun then (.down, sync) else (.standby, sync)
    | .check _ => (.standby, sync)
    | .valid f => if f.kind = .sync then (.training, 1) else (.standby, sync)

/-! ### Expected number and last valid span (R11, R12) -/

/-- The valid DATA or IDLE span of a window, when it took one. -/
def usedSpan (o : WindowOutcome) : Option ForwardSpan :=
  match o with
  | .valid f => if f.kind = .data ∨ f.kind = .idle then some f else none
  | _ => none

/-- The expected span number after a window and the window's sequence, from the receiver state before and after it (R11). -/
def expectedAfter (old new : RxState) (o : WindowOutcome) (e : SpanNumber) : SpanNumber × SequenceResult :=
  if old = .locked then
    if new = .locked then
      match usedSpan o with
      | some f => if f.number = e + 1 then (e + 1, .matched) else (f.number, .mismatched)
      | none => (e + 1, .notCompared)
    else (e + 1, .notCompared)
  else if new = .locked then
    match usedSpan o with
    | some f => (f.number, .matched)
    | none => (e, .notCompared)
  else (e, .notCompared)

/-- The last-valid-span record after a window of index w (R12). -/
def lastValidAfter (w : WindowIndex) (old new : RxState) (o : WindowOutcome) (held : Option LastValid) : Option LastValid :=
  if new = .locked then
    match o with
    | .valid f =>
      if f.kind = .data then some ⟨w, f.position, f.run, f.song⟩ else if old = .locked then held else none
    | _ => if old = .locked then held else none
  else held

/-! ### Delay ring (R13, R14) -/

/-- The predicted metadata of a PREDICTED slot (R14). -/
def predictedMeta (w : WindowIndex) (e : SpanNumber) (held : Option LastValid) : SlotMeta :=
  match held with
  | some r => ⟨e, playedOn r.position r.window w, r.run, false, 0, r.song⟩
  | none => ⟨e, 0, false, false, 0, 0⟩

/-- The slot a window writes, from the receiver state after step 1 and the outcome (R13). -/
def slotFor (w : WindowIndex) (new : RxState) (o : WindowOutcome) (e : SpanNumber) (held : Option LastValid) : Slot :=
  if new = .locked then
    match o with
    | .valid f =>
      if f.kind = .data then
        .valid ⟨f.number, f.position, f.run, f.mark, if f.mark then f.markOffset else 0, f.song⟩ f.audio
      else .empty
    | .check audio => .predicted (predictedMeta w e held) audio
    | .absent => .empty
  else .empty

/-- Where window w writes: slot w modulo 64 (1.6). -/
def ringIndex (w : WindowIndex) : Nat :=
  w.toNat % Config.ringSlots

/-! ### Counters (R19) -/

/-- The counters after a window of this outcome and sequence (R19). -/
def countWindow (o : WindowOutcome) (q : SequenceResult) (c : Counters) : Counters :=
  let c1 := match o with
    | .absent => { c with absentWindows := countUp c.absentWindows }
    | .check _ => { c with taken := countUp c.taken, checkFailures := countUp c.checkFailures }
    | .valid _ => { c with taken := countUp c.taken }
  if q = .mismatched then { c1 with sequenceFaults := countUp c1.sequenceFaults } else c1

/-! ### The window close (R5) -/

/-- Steps 1 to 3 on the show port itself: receiver, expected number, last valid span, slot and counters (R5). -/
def portAfter (t : Tables) (w : WindowIndex) (o : WindowOutcome) (port : ShowPort) : ShowPort :=
  let absentRun := absentRunAfter o port.absentRun
  let rx := rxAfter t port.rx port.sync absentRun o
  let e := expectedAfter port.rx rx.1 o port.expected
  let held := lastValidAfter w port.rx rx.1 o port.lastValid
  { port with
      store := port.store.drop 1, rx := rx.1, sync := rx.2, absentRun := absentRun, expected := e.1, lastValid := held,
      ring := port.ring.set (ringIndex w) (slotFor w rx.1 o e.1 held), counters := countWindow o e.2 port.counters }

/-- The pilot samples of a report: the pilot channel of a valid DATA span (R15). -/
def pilotSamples (pilot : Option Nat) (o : WindowOutcome) : Option (List Sample) :=
  match o, pilot with
  | .valid f, some k => if f.kind = .data then some ((List.range Config.spanLength).map (audioAt f.audio · k)) else none
  | _, _ => none

/-- The window report (R15). -/
def reportFor (t : Tables) (p : Port) (w : WindowIndex) (o : WindowOutcome) (before after : ShowPort) : WindowReport :=
  { window := w, rx := after.rx, changed := before.rx != after.rx, outcome := o,
    sequence := (expectedAfter before.rx after.rx o before.expected).2, pilot := pilotSamples (t.pilot p) o }

/-- What a change of receiver state does besides: PORT_STATE, and a broken-message indication when LOCKED is left (R6). -/
def recordTransition (p : Port) (old new : RxState) (s : State) : State :=
  if old = new then s
  else
    let s1 := offerEvent (.portState p old new) s
    if old = .locked then stepDeframer p indicateBroken s1 else s1

/-- Step 5: control-lane bytes of a LOCKED window with a valid DATA or IDLE span, or the indication of a LOCKED check failure
(R16). -/
def handWindowLane (p : Port) (rx : RxState) (o : WindowOutcome) (s : State) : State :=
  if rx = .locked then
    match o with
    | .check _ => stepDeframer p indicateBroken s
    | _ => match usedSpan o with
      | some f => handLane p f.number f.lane s
      | none => s
  else s

/-- A window close of port p with this outcome, up to the deframer's age (R5). -/
def windowUpToAge (p : Port) (o : WindowOutcome) (s : State) : State :=
  let before := s.ports.get p
  let after := portAfter s.live s.clock.window o before
  let report := reportFor s.live p s.clock.window o before after
  let slot := after.ring.getD (ringIndex s.clock.window) .empty
  let s1 := recordTransition p before.rx after.rx (s.setPort p after)
  let s2 := takeAlignmentReport p report slot (takeHealthReport p report s1)
  handWindowLane p after.rx o s2

/-- The receive window of port p closes: the oldest held span is taken, the five steps of R5 follow, and the deframer's age is
updated (R124). -/
def closeWindow (p : Port) (s : State) : State :=
  let s1 := stepDeframer p ageStep (windowUpToAge p (windowOutcome (s.ports.get p).store) s)
  { s1 with clock := { s1.clock with closed := s1.clock.closed.set p true } }

/-! ### Return spans (R17) -/

/-- The return span a port forms now (R17). -/
def State.returnSpan (s : State) (p : Port) : ReturnSpan :=
  { number := windowNumber s.clock.window, onAir := onAirFlag s.ctrl.mode p, wait := (s.ports.get p).wait,
    fade := s.ctrl.mode.isTransition, degraded := s.ctrl.degraded, mode := s.ctrl.mode,
    lane := (s.ports.get p).replies.take Config.laneBytes }

/-- A port sends its return span: up to 8 bytes leave the front of its reply queue (R17). -/
def sendReturnSpan (p : Port) (s : State) : State :=
  let r := s.returnSpan p
  let port := s.ports.get p
  { s.setPort p { port with replies := port.replies.drop Config.laneBytes } with sentReturn := s.sentReturn.set p (some r) }

end Sys2Proof.Machine
end

