-- ==== Sys2Proof/Machine/Verbs.lean ====
section
/-! DEFINITION. The thirteen verbs (08, R130 to R142): what the engine does with each request's operands, the status it answers and the
payload of the reply. -/

namespace Sys2Proof.Machine

/-- What executing a request gives: the state after it, the status and the payload (R127, R128). -/
structure Answer where
  state : State
  status : Status
  payload : List Byte
deriving DecidableEq, Repr

/-- A request refused by a test changes nothing and has an empty payload (R127). -/
def refuse (s : State) (status : Status) : Answer :=
  ⟨s, status, []⟩

/-- A request done, with no payload. -/
def answerWith (s : State) (status : Status) : Answer :=
  ⟨s, status, []⟩

/-! ### STATE (R130) -/

/-- The pending switch record in a STATE reply (11.4, R159). -/
def pendingSwitchBytes (free : Byte) : Option PendingSwitch → List Byte
  | none => [0xFF, 0, 0, 0]
  | some r => [portCode (some r.target), triggerCode r.trigger, songByte free r.trigger, switchCauseCode r.cause]

/-- The pending apply record in a STATE reply (11.4, R159). -/
def applyRecordBytes (free : Byte) : Option ApplyRecord → List Byte
  | none => [0xFF, 0, 0]
  | some r => [triggerCode r.trigger, songByte free r.trigger, phaseCode r.phase]

/-- Receiver state, verdict and score of one port in a STATE reply. -/
def portBytes (s : State) (p : Port) : List Byte :=
  [rxCode (s.ports.get p).rx, verdictCode (s.health.get p).verdict, byteOf (s.health.get p).score]

/-- The accepted skew in a STATE reply: modulo 2^40, and 0 when absent (R159). -/
def skewBytes (k : Option Int) : List Byte :=
  bytesOfNat 5 (position40 (k.getD 0)).toNat

/-- The flags byte of a STATE reply: bit 0 AUTO, bit 1 DEGRADED, and the rest the free value given (11.4, log 34). -/
def stateFlags (free : BitVec 6) (auto degraded : Bool) : Byte :=
  free ++ BitVec.ofBool degraded ++ BitVec.ofBool auto

/-- The 35 bytes of a STATE payload (11.4). -/
def statePayload (s : State) : List Byte :=
  [modeCode s.ctrl.mode, portCode s.ctrl.mode.onAir, portCode s.ctrl.mode.target]
    ++ bytesOfNat 2 s.ctrl.q ++ bytesOfNat 2 s.ctrl.len
    ++ pendingSwitchBytes (Config.unstatedSong s.free) s.ctrl.pendingSwitch
    ++ applyRecordBytes (Config.unstatedSong (s.free + 1)) s.tables.apply
    ++ [stateFlags (Config.unstatedFlags s.free) s.ctrl.auto s.ctrl.degraded]
    ++ portBytes s .a ++ portBytes s .b
    ++ [alignStateCode (alignmentState s.align)] ++ skewBytes s.align.accepted
    ++ bytesOfNat 2 s.align.delays.a ++ bytesOfNat 2 s.align.delays.b
    ++ [if s.store.writing.isSome then 1 else 0]
    ++ [byteOf s.tables.lock.code.val, flagByte s.tables.lock.complement, lockModeCode s.tables.lock.mode]

/-- STATE: a snapshot; it changes nothing of the part, and uses free values of the model (R130; logs 12 and 34). -/
def doState (s : State) : Answer :=
  ⟨{ s with free := s.free + 2 }, .ok, statePayload s⟩

/-! ### READ and WRITE (R101, R113, R131, R132) -/

/-- READ with its operands decoded: the entries of one copy, clamped to what a reply carries (R131). -/
def readEntries (t : TableName) (staged : Bool) (first count : Nat) (s : State) : Answer :=
  let n := min count t.maxEntries
  let copy := if staged then s.tables.staged else s.tables.live
  ⟨s, .ok, byteOf n :: (indicesFrom t first n).flatMap (tableEntryBytes copy t)⟩

/-- READ: table, first index and copy are tested in that order (R131, R158). -/
def doRead (table copy : Byte) (first count : Nat) (s : State) : Answer :=
  match tableOfCode table with
  | none => refuse s .badTable
  | some t =>
    if t.lastIndex < first then refuse s .badIndex
    else match flagOfCode copy with
      | none => refuse s .badValue
      | some staged => readEntries t staged first count s

/-- The lock test of a WRITE at these indices (R113). -/
def writeLocked (l : LockRecord) (t : TableName) (indices : List Nat) : Bool :=
  lockEngaged l && (match t with
    | .route => indices.any (channelLocked l)
    | .curve => !indices.isEmpty
    | .profile => !indices.isEmpty)

/-- The staged copy with the entries written, or none when a value is out of range (R100, R101). -/
def stagedWith (t : TableName) (staged : Tables) (indices : List Nat) (entries : List Byte) : Option Tables :=
  match t with
  | .route => (routeEntriesOf entries).map fun es => { staged with route := writeAt staged.route indices es }
  | .curve =>
    let points := wordsOf entries
    if points.all (fun v => decide (v ≤ 32768)) then some { staged with curve := writeAt staged.curve indices points } else none
  | .profile =>
    let values := wordsOf entries
    if (indices.zip values).all (fun x => profileInRange x.1 x.2) then
      some { staged with profile := writeAt staged.profile indices values }
    else none

/-- WRITE: table, first index, length, values and lock are tested in that order, and the entries are written all or nothing
(R101, R132). -/
def doWrite (table : Byte) (first : Nat) (entries : List Byte) (s : State) : Answer :=
  match tableOfCode table with
  | none => refuse s .badTable
  | some t =>
    let n := entries.length / t.entryBytes
    let indices := indicesFrom t first n
    if t.lastIndex < first then refuse s .badIndex
    else if entries.length % t.entryBytes ≠ 0 ∨ t.maxEntries < n then refuse s .badLength
    else match stagedWith t s.tables.staged indices entries with
      | none => refuse s .badValue
      | some staged =>
        if writeLocked s.tables.lock t indices then refuse s .locked
        else answerWith { s with tables := { s.tables with staged := staged } } .ok

/-! ### APPLY and DISCARD (R103, R107) -/

/-- The pending apply record is created, or replaces the existing one. A NOW record is met at a span start reported after it
(R103, R104). -/
def createApply (trigger : Trigger) (s : State) : State :=
  { s with tables := { s.tables with apply := some ⟨trigger, .waiting⟩ }, mixer := { s.mixer with owedApply := false } }

/-- APPLY: the trigger code is tested, then the staged copy is validated (R103, R133). -/
def doApply (trigger song : Byte) (s : State) : Answer :=
  match triggerOfCode trigger song with
  | none => refuse s .badValue
  | some trig =>
    match validate s.tables with
    | some status => refuse s status
    | none => answerWith (createApply trig s) .pending

/-- DISCARD: staged becomes live and the pending apply record is removed (R107, R134). -/
def doDiscard (s : State) : Answer :=
  answerWith { s with tables := { s.tables with staged := s.tables.live, apply := none } } .ok

/-! ### SWITCH, AUTO and LOCK (R72, R74, R116) -/

/-- SWITCH: the operands are tested, then the controller decides (R135). -/
def doSwitch (target trigger song : Byte) (s : State) : Answer :=
  match portOfCode target, triggerOfCode trigger song with
  | some t, some trig => let r := decideSwitch t trig s; answerWith r.1 r.2
  | _, _ => refuse s .badValue

/-- AUTO: a request for the value that the flag already holds is OK and changes nothing, the lock engaged or not; else off is refused
while the lock is engaged, and on is always taken (R74, R115, R136; log 19 on how the two sentences of R136 are read together). -/
def doAuto (value : Byte) (s : State) : Answer :=
  match flagOfCode value with
  | none => refuse s .badValue
  | some on =>
    if on = s.ctrl.auto then answerWith s .ok
    else if on then answerWith (setAuto s) .ok
    else if lockEngaged s.tables.lock then refuse s .locked
    else answerWith { s with ctrl := { s.ctrl with auto := false } } .ok

/-- The mode test of a LOCK request, on the record held before it (R116, R117). -/
def lockModeRefuses (held : LockRecord) (showlock : Bool) : Bool :=
  match held.mode with
  | .openMode => false
  | .line => showlock
  | .latched => true

/-- LOCK: the values are tested, then the mode held (R116, R137). -/
def doLock (code complement mode : Byte) (s : State) : Answer :=
  match lockRecordOf code complement mode with
  | none => refuse s .badValue
  | some l =>
    if lockModeRefuses s.tables.lock s.pins.showlock then refuse s .locked
    else answerWith { s with tables := { s.tables with lock := l } } .ok

/-! ### EVENTS and FLUSH (R138, R139) -/

/-- The records an EVENTS request takes from the front, and those left: at most `n` of them and at most `room` bytes (R138). -/
def takeRecords (n room : Nat) : List EventRecord → List EventRecord × List EventRecord
  | [] => ([], [])
  | r :: rest =>
    if 0 < n ∧ r.size ≤ room then
      let t := takeRecords (n - 1) (room - r.size) rest
      (r :: t.1, t.2)
    else ([], r :: rest)

/-- EVENTS: the oldest whole records leave the queue and are returned, with the number left and the lost count (R138, R146). -/
def doEvents (maximum : Byte) (s : State) : Answer :=
  let n := if maximum = 0 then 1 else maximum.toNat
  let t := takeRecords n Config.eventsReplyBytes s.events.records
  ⟨{ s with events := { s.events with records := t.2 } }, .ok,
    [byteOf t.1.length, byteOf t.2.length, byteOf s.events.lost] ++ t.1.flatMap EventRecord.bytes⟩

/-- FLUSH: the queue is emptied and the lost count zeroed (R139, R146). -/
def doFlush (s : State) : Answer :=
  answerWith { s with events := ⟨[], 0⟩ } .ok

/-! ### SAVE, COUNTERS and IDENT (R140 to R142) -/

/-- SAVE: with the store IDLE, the live tables and the lock record are snapshotted and the write begins, which makes the stored copy
invalid; while a write is in flight it is refused (R140, R150, R151). -/
def doSave (s : State) : Answer :=
  match s.store.writing with
  | some _ => refuse s .busy
  | none => answerWith { s with store := ⟨none, some ⟨s.tables.live, s.tables.lock⟩⟩ } .pending

/-- The eleven counts in the order of R19 (R141). -/
def counterBytes (c : Counters) : List Byte :=
  [c.taken, c.checkFailures, c.absentWindows, c.overruns, c.sequenceFaults, c.short, c.long, c.escape, c.timeout, c.broken,
    c.dropped].flatMap (bytesOfNat 4)

/-- COUNTERS: one port's counters as they stand, zeroed after reading when the clear flag is set (R19, R141). -/
def doCounters (port clear : Byte) (s : State) : Answer :=
  match portOfCode port, flagOfCode clear with
  | some p, some clearFlag =>
    let x := s.ports.get p
    ⟨if clearFlag then s.setPort p { x with counters := zeroCounters } else s, .ok, portCode (some p) :: counterBytes x.counters⟩
  | _, _ => refuse s .badValue

/-- IDENT: vendor, part number, revision and RATE selection (R142). -/
def doIdent (s : State) : Answer :=
  ⟨s, .ok, bytesOfNat 2 Config.vendorCode ++ bytesOfNat 2 Config.partNumber ++ [byteOf Config.revision, rateCode s.rate]⟩

/-! ### The verb and length tests (R127) -/

/-- STATE takes no operand bytes. -/
def verbState (operands : List Byte) (s : State) : Answer :=
  match operands with
  | [] => doState s
  | _ => refuse s .badLength

/-- READ takes five. -/
def verbRead (operands : List Byte) (s : State) : Answer :=
  match operands with
  | [table, copy, hi, lo, count] => doRead table copy (natOfBytes [hi, lo]) count.toNat s
  | _ => refuse s .badLength

/-- WRITE takes three or more. -/
def verbWrite (operands : List Byte) (s : State) : Answer :=
  match operands with
  | table :: hi :: lo :: entries => doWrite table (natOfBytes [hi, lo]) entries s
  | _ => refuse s .badLength

/-- APPLY takes two. -/
def verbApply (operands : List Byte) (s : State) : Answer :=
  match operands with
  | [trigger, song] => doApply trigger song s
  | _ => refuse s .badLength

/-- DISCARD takes none. -/
def verbDiscard (operands : List Byte) (s : State) : Answer :=
  match operands with
  | [] => doDiscard s
  | _ => refuse s .badLength

/-- SWITCH takes three. -/
def verbSwitch (operands : List Byte) (s : State) : Answer :=
  match operands with
  | [target, trigger, song] => doSwitch target trigger song s
  | _ => refuse s .badLength

/-- AUTO takes one. -/
def verbAuto (operands : List Byte) (s : State) : Answer :=
  match operands with
  | [value] => doAuto value s
  | _ => refuse s .badLength

/-- LOCK takes three. -/
def verbLock (operands : List Byte) (s : State) : Answer :=
  match operands with
  | [code, complement, mode] => doLock code complement mode s
  | _ => refuse s .badLength

/-- EVENTS takes one. -/
def verbEvents (operands : List Byte) (s : State) : Answer :=
  match operands with
  | [maximum] => doEvents maximum s
  | _ => refuse s .badLength

/-- FLUSH takes none. -/
def verbFlush (operands : List Byte) (s : State) : Answer :=
  match operands with
  | [] => doFlush s
  | _ => refuse s .badLength

/-- SAVE takes none. -/
def verbSave (operands : List Byte) (s : State) : Answer :=
  match operands with
  | [] => doSave s
  | _ => refuse s .badLength

/-- COUNTERS takes two. -/
def verbCounters (operands : List Byte) (s : State) : Answer :=
  match operands with
  | [port, clear] => doCounters port clear s
  | _ => refuse s .badLength

/-- IDENT takes none. -/
def verbIdent (operands : List Byte) (s : State) : Answer :=
  match operands with
  | [] => doIdent s
  | _ => refuse s .badLength

/-- The verb of a request (11.2); any other code is BAD_VERB (R127). -/
def runVerb (verb : Byte) (operands : List Byte) (s : State) : Answer :=
  if verb = 0x01 then verbState operands s
  else if verb = 0x02 then verbRead operands s
  else if verb = 0x03 then verbWrite operands s
  else if verb = 0x04 then verbApply operands s
  else if verb = 0x05 then verbDiscard operands s
  else if verb = 0x06 then verbSwitch operands s
  else if verb = 0x07 then verbAuto operands s
  else if verb = 0x08 then verbLock operands s
  else if verb = 0x09 then verbEvents operands s
  else if verb = 0x0A then verbFlush operands s
  else if verb = 0x0B then verbSave operands s
  else if verb = 0x0C then verbCounters operands s
  else if verb = 0x0D then verbIdent operands s
  else refuse s .badVerb

end Sys2Proof.Machine
end

