-- ==== Sys2Proof/Machine/Engine.lean ====
section
/-! DEFINITION. The management engine (08, R126 to R128) and the meanings of the requests. -/

namespace Sys2Proof.Machine

/-- A port is eligible when its request queue holds a message and its reply queue has at least 194 free bytes (R126). -/
def State.eligible (s : State) (p : Port) : Bool :=
  !(s.ports.get p).requests.isEmpty
    && decide ((s.ports.get p).replies.length + Config.replyReserve ≤ Config.replyBytes)

/-- The port the engine takes its next request from: the one the pointer names if eligible, else the other (R126). -/
def State.nextTake (s : State) : Option Port :=
  if s.eligible s.pointer then some s.pointer else if s.eligible s.pointer.other then some s.pointer.other else none

/-- The execution stamp of a reply: the window index modulo 65536, high byte first (R128). -/
def stampBytes (s : State) : List Byte :=
  bytesOfNat 2 s.clock.window.toNat

/-- A reply before escaping (R128). -/
def replyBytes (tag verb : Byte) (status : Status) (stamp payload : List Byte) : List Byte :=
  [tag, verb, statusCode status] ++ stamp ++ payload

/-- A framed reply is placed at the back of the port's reply queue, in one piece (R128). -/
def placeReply (p : Port) (reply : List Byte) (s : State) : State :=
  let port := s.ports.get p
  s.setPort p { port with replies := port.replies ++ frameMessage reply }

/-- A request is executed whole and its one reply is placed (R127, R128). A message shorter than 2 bytes is never queued (R122). -/
def executeRequest (p : Port) (message : List Byte) (s : State) : State :=
  match message with
  | tag :: verb :: operands =>
    let answer := runVerb verb operands s
    placeReply p (replyBytes tag verb answer.status (stampBytes s) answer.payload) answer.state
  | _ => s

/-- The engine takes the oldest message of a port's queue: WAIT follows the fill, and the pointer names the other port (R125,
R126). -/
def takeRequest (p : Port) (s : State) : State :=
  let port := s.ports.get p
  { s.setPort p { port with requests := port.requests.drop 1, wait := waitAfterTake port.wait (port.requests.length - 1) } with
      pointer := p.other }

/-- One request: taken from a port, then executed (R126, R127). -/
def serveRequest (p : Port) (s : State) : State :=
  executeRequest p ((s.ports.get p).requests.headD []) (takeRequest p s)

/-- The engine looks, and serves requests until none is eligible, at most `n` of them (R126). -/
def serveUpTo : Nat → State → State
  | 0, s => s
  | n + 1, s =>
    match s.nextTake with
    | none => s
    | some p => serveUpTo n (serveRequest p s)

/-- The requests waiting in both queues. -/
def State.waitingRequests (s : State) : Nat :=
  (s.ports.get .a).requests.length + (s.ports.get .b).requests.length

/-- The engine serves every request it can (R126). Each serve takes one message, so as many serves as messages wait are enough. -/
def runEngine (s : State) : State :=
  serveUpTo s.waitingRequests s

/-! ### The samples of a span come first (R92)

The 32 samples of program span w are made at the start of span period w, where the return spans have just drained the reply queues. The
engine looks at those when the samples are made, so that what a request decides acts from program span w + 1 onward (log 7). -/

/-- The last sample of a span is followed by the engine's look (R92, R126). -/
def lookAfterSpan (s : State) : State :=
  if s.clock.made = Config.spanLength then runEngine s else s

/-- Make the rest of the period's 32 samples: all of them precede its window closes and its requests (R92). -/
def finishSamples (s : State) : State :=
  if s.clock.made < Config.spanLength then runEngine (makeSamples (Config.spanLength - s.clock.made) s) else s

/-- The state in which a request of this period is taken: its samples are made, if a period has begun (R92). -/
def atRequest (s : State) : State :=
  if s.clock.begun then finishSamples s else s

/-- A whole request completes at a port, after the samples of the span: offered to its request queue, after which the engine looks
(R92, R125, R126; log 6). A message of more than 96 bytes never completes: it is the LONG error of R121 (log 31). -/
def submitRequest (p : Port) (message : List Byte) (s : State) : State :=
  if message.length ≤ Config.messageBytes then runEngine (offerMessage p message (atRequest s))
  else raiseMgmtError p .long (atRequest s)

/-! ### The meanings of the requests -/

/-- STATE (R130). -/
def execState (p : Port) (tag : Byte) (operands : List Byte) (s : State) : Result :=
  whileRunning (submitRequest p (tag :: 0x01 :: operands)) s

/-- READ (R131). -/
def execRead (p : Port) (tag : Byte) (operands : List Byte) (s : State) : Result :=
  whileRunning (submitRequest p (tag :: 0x02 :: operands)) s

/-- WRITE (R101, R132). -/
def execWrite (p : Port) (tag : Byte) (operands : List Byte) (s : State) : Result :=
  whileRunning (submitRequest p (tag :: 0x03 :: operands)) s

/-- APPLY (R103, R133). -/
def execApply (p : Port) (tag : Byte) (operands : List Byte) (s : State) : Result :=
  whileRunning (submitRequest p (tag :: 0x04 :: operands)) s

/-- DISCARD (R107, R134). -/
def execDiscard (p : Port) (tag : Byte) (operands : List Byte) (s : State) : Result :=
  whileRunning (submitRequest p (tag :: 0x05 :: operands)) s

/-- SWITCH (R72, R135). -/
def execSwitch (p : Port) (tag : Byte) (operands : List Byte) (s : State) : Result :=
  whileRunning (submitRequest p (tag :: 0x06 :: operands)) s

/-- AUTO (R74, R136). -/
def execAuto (p : Port) (tag : Byte) (operands : List Byte) (s : State) : Result :=
  whileRunning (submitRequest p (tag :: 0x07 :: operands)) s

/-- SHOWLOCK takes this level; nothing else changes (R117). -/
def setShowlock (level : Bool) (s : State) : State :=
  { s with pins := { s.pins with showlock := level } }

/-- LOCK, with the level SHOWLOCK has at that moment (R116, R117, R137). A request that an owed look of the engine executes before it
reads the level the line had (log 5). -/
def execLock (p : Port) (tag : Byte) (operands : List Byte) (showlock : Bool) (s : State) : Result :=
  whileRunning (fun s => submitRequest p (tag :: 0x08 :: operands) (setShowlock showlock (atRequest s))) s

/-- EVENTS (R138). -/
def execEvents (p : Port) (tag : Byte) (operands : List Byte) (s : State) : Result :=
  whileRunning (submitRequest p (tag :: 0x09 :: operands)) s

/-- FLUSH (R139). -/
def execFlush (p : Port) (tag : Byte) (operands : List Byte) (s : State) : Result :=
  whileRunning (submitRequest p (tag :: 0x0A :: operands)) s

/-- SAVE (R140, R151). -/
def execSave (p : Port) (tag : Byte) (operands : List Byte) (s : State) : Result :=
  whileRunning (submitRequest p (tag :: 0x0B :: operands)) s

/-- COUNTERS (R141). -/
def execCounters (p : Port) (tag : Byte) (operands : List Byte) (s : State) : Result :=
  whileRunning (submitRequest p (tag :: 0x0C :: operands)) s

/-- IDENT (R142). -/
def execIdent (p : Port) (tag : Byte) (operands : List Byte) (s : State) : Result :=
  whileRunning (submitRequest p (tag :: 0x0D :: operands)) s

/-- BAD_VERB: a request whose verb code names no verb (R127). -/
def execBadVerb (p : Port) (tag : Byte) (verb : Byte) (operands : List Byte) (s : State) : Result :=
  whileRunning (submitRequest p (tag :: verb :: operands)) s

end Sys2Proof.Machine
end

