-- ==== Sys2Proof/Machine/Clock.lean ====
section
/-! DEFINITION. The part's own time (R2): span periods, program samples, window closes and panel samplings, with whatever the clock owes
before each done first (log 2), and the events that come about in one of them as commands of their own (log 3). -/

namespace Sys2Proof.Machine

/-! ### Span periods (R2) -/

/-- A window close, after which the engine looks for requests that have entered (R5, R126; log 26). -/
def closeAndServe (p : Port) (s : State) : State :=
  runEngine (closeWindow p s)

/-- Close a port's window if this period has not closed it yet. -/
def closeIfOpen (p : Port) (s : State) : State :=
  if s.clock.closed.get p then s else closeAndServe p s

/-- Sample the contacts at the levels they have, if this period has not sampled them yet (R77). -/
def sampleIfDue (s : State) : State :=
  if s.clock.panelDone then s else samplePanel s.pins.forceA s.pins.forceB s

/-- All that the present period still owes: its samples, both window closes and the panel sampling (R2, R5, R77, R92; log 2). -/
def endPeriod (s : State) : State :=
  if s.clock.begun then sampleIfDue (closeIfOpen .b (closeIfOpen .a (finishSamples s))) else s

/-- The clock at the start of the next period: the window index advances, but for the first period after a start-up (R2). -/
def Clock.next (c : Clock) : Clock :=
  { window := if c.begun then c.window + 1 else c.window, begun := true, made := 0, closed := PerPort.both false,
    panelDone := false }

/-- The mixer at the start of a program span: read throughout with the delays as they now stand (R43), and with the answers that
the controller and table memory owe this span start (R57, R71, R104). -/
def spanMixer (s : State) : Mixer :=
  { rows := [], firstMark := none, delays := s.align.delays, owedStart := s.ctrl.scheduled.isSome,
    owedSwitch := (match s.ctrl.pendingSwitch with
      | some ⟨_, .now, _⟩ => true
      | _ => false),
    owedApply := s.applyWaitsNow, earlyMark := none }

/-- A span period starts: both return spans are formed and sent (R2, R17; log 8 gives their place before the answers to the span
start). The engine looks at the reply queues they drain when the span's samples are made (R92, R126; log 7). -/
def startPeriod (s : State) : State :=
  sendReturnSpan .b (sendReturnSpan .a { s with clock := s.clock.next, mixer := spanMixer s })

/-- What the present period owes is done, and the next one starts. -/
def nextPeriod (s : State) : State :=
  startPeriod (endPeriod s)

/-- The state in which the next program sample is about to be made. -/
def atSample (s : State) : State :=
  if s.clock.begun && decide (s.clock.made < Config.spanLength) then s else nextPeriod s

/-- The state in which the next window close of port p is about to be made. -/
def atWindow (p : Port) (s : State) : State :=
  finishSamples (if s.clock.begun && !s.clock.closed.get p then s else nextPeriod s)

/-- The state in which the contacts are about to be sampled. -/
def atPanel (s : State) : State :=
  finishSamples (if s.clock.begun && !s.clock.panelDone then s else nextPeriod s)

/-! ### The clock's own commands -/

/-- SPAN_COMPLETE (R4). -/
def execSpanComplete (p : Port) (bytes : List Byte) (s : State) : Result :=
  whileRunning (fun s => s.setPort p (enterStore bytes (s.ports.get p))) s

/-- SPAN_PERIOD_START (R2). -/
def execSpanPeriodStart (s : State) : Result :=
  whileRunning nextPeriod s

/-- The next program sample is made, and after the last of its span the engine looks (R92, R126). -/
def nextSample (s : State) : State :=
  lookAfterSpan (makeSample (atSample s))

/-- PROGRAM_SAMPLE (R92). -/
def execProgramSample (s : State) : Result :=
  whileRunning nextSample s

/-- WINDOW_CLOSE (R5). -/
def execWindowClose (p : Port) (s : State) : Result :=
  whileRunning (fun s => closeAndServe p (atWindow p s)) s

/-- PANEL_SAMPLING: the lines take these levels, and both contacts are sampled (R77). What the clock owes before the sampling still
sees the level SHOWLOCK had: of the two orders of R117 the model takes the request first (log 5). -/
def execPanelSampling (forceA forceB showlock : Bool) (s : State) : Result :=
  whileRunning (fun s => samplePanel forceA forceB (setShowlock showlock (atPanel s))) s

/-! ### Events of a program sample (log 3)

Each acts at the sample about to be made, if its event comes about there, and leaves the state as it stands otherwise. -/

/-- Whether the span start about to be answered has a scheduled start of such an action (R57). -/
def startOwed (wanted : StartAction → Bool) (s : State) : Bool :=
  decide (s.clock.made = 0) && s.mixer.owedStart
    && (match s.ctrl.scheduled with
      | some st => wanted st.action
      | none => false)

/-- The controller answers the span start with its scheduled start, if there is one of such an action. -/
def answerStart (wanted : StartAction → Bool) (s : State) : State :=
  let s1 := atSample s
  if startOwed wanted s1 then answerScheduled s1 else s

/-- The actions of TRANSITION_START: OPEN and FADE starts (R58). -/
def isOpenOrFade : StartAction → Bool
  | .opening => true
  | .fade => true
  | .reversal => false

/-- The action of REVERSAL (R68). -/
def isReversal : StartAction → Bool
  | .opening => false
  | .fade => false
  | .reversal => true

/-- TRANSITION_START (R58, R59, R69). -/
def execTransitionStart (s : State) : Result :=
  whileRunning (answerStart isOpenOrFade) s

/-- REVERSAL (R68, R69). -/
def execReversal (s : State) : Result :=
  whileRunning (answerStart isReversal) s

/-- The mark of the sample about to be made stays reported until that sample is made (log 3). -/
def keepMark (m : MarkReport) (s : State) : State :=
  { s with mixer := { s.mixer with earlyMark := some m } }

/-- The controller's span-start answer up to its scheduled start. -/
def scheduledAnswered (s : State) : State :=
  if s.clock.made = 0 then answerScheduled s else s

/-- Whether a NOW record fires at the span start being answered (R71). -/
def nowFires (s : State) : Bool :=
  decide (s.clock.made = 0) && s.mixer.owedSwitch && s.switchAtSpanStart.isSome

/-- The pending switch record fires at the sample about to be made: a NOW record at a span start, else a mark record at a mark,
which is read with the state the span start has left (R71, R92). The record of an adoption made at that span start follows (R106). -/
def fireAtSample (s : State) : State :=
  let s1 := scheduledAnswered (atSample s)
  if nowFires s1 then answerNow s1
  else
    let s2 := sampleStep1 (atSample s)
    match s2.sampleMark with
    | some m => if (s2.switchAtMark m).isSome then keepMark m (recordAdoption (atSample s) (controllerMark m s2)) else s
    | none => s

/-- PENDING_SWITCH_FIRE (R71). -/
def execPendingSwitchFire (s : State) : Result :=
  whileRunning fireAtSample s

/-- The program sample at which the fade position reaches the fade length is made, and with it the fade end is handled (R61). -/
def endFadeAtSample (s : State) : State :=
  let s1 := atSample s
  if fadeEndDue (sampleMixed s1) then nextSample s1 else s

/-- FADE_END (R61). -/
def execFadeEnd (s : State) : Result :=
  whileRunning endFadeAtSample s

/-- Whether the NOW trigger of the pending apply record is met at the span start being answered (R104). -/
def applyNowMet (s : State) : Bool :=
  decide (s.clock.made = 0) && s.mixer.owedApply && s.applyWaitsNow

/-- Table memory has answered this sample ahead of the controller, one of the two orders of R109. An adoption it made is recorded after
the records that the controller makes at the same sample (R106), so the controller's answers due there are given first. -/
def recordBehind (before after : State) : State :=
  if after.tables.apply.isNone then recordAdoption before (fireAtSample (answerStart isOpenOrFade after)) else after

/-- The pending apply record meets its trigger at the sample about to be made: NOW at a span start, where table memory's answer may
precede the controller's (R109), else at a mark, read with the state the span start has left (R104, R92). -/
def adoptAtSample (s : State) : State :=
  let s1 := atSample s
  if applyNowMet s1 then recordBehind s1 (tableSpanStart s1)
  else
    let s2 := sampleStep1 s1
    match s2.sampleMark with
    | some m => if s2.applyWaitsMark m.song then recordBehind s2 (keepMark m (tableMark m s2)) else s
    | none => s

/-- ADOPTION (R104, R106). The release of a DEFERRED record belongs to the fade end or the abandoned opening that releases it
(R105). -/
def execAdoption (s : State) : Result :=
  whileRunning adoptAtSample s

/-! ### Events of a window close (log 3)

Each performs the port's next window close whole, if its event comes about in it, and leaves the state as it stands otherwise. -/

/-- Perform the next window close of port p if an event, judged from the states before and after the close, comes about in it. -/
def closeIf (p : Port) (comesAbout : State → State → Bool) (s : State) : State :=
  let before := atWindow p s
  let after := closeWindow p before
  if comesAbout before after then runEngine after else s

/-- The absent window that takes a LOCKED or STANDBY port to DOWN (R9, R10). -/
def absentToDown (p : Port) (before after : State) : Bool :=
  (before.ports.get p).store.isEmpty
    && decide ((before.ports.get p).rx = .locked ∨ (before.ports.get p).rx = .standby)
    && decide ((after.ports.get p).rx = .down)

/-- ABSENT_RUN_REACHES_N_DOWN (R9, R10). -/
def execAbsentRunReachesNDown (p : Port) (s : State) : Result :=
  whileRunning (closeIf p (absentToDown p)) s

/-- The window that makes a RECOVERING port GOOD (R33). -/
def earnsGood (p : Port) (before after : State) : Bool :=
  decide ((before.health.get p).verdict = .recovering) && decide ((after.health.get p).verdict = .good)

/-- CLEAN_COUNT_REACHES_Q_OK (R33). -/
def execCleanCountReachesQOk (p : Port) (s : State) : Result :=
  whileRunning (closeIf p (earnsGood p)) s

/-- The window that creates the revert record (R76). -/
def createsRevert (before after : State) : Bool :=
  before.ctrl.pendingSwitch.isNone
    && (match after.ctrl.pendingSwitch with
      | some ⟨_, _, .revert⟩ => true
      | _ => false)

/-- REVERT: at a window notice of the preferred port (R75, R76). -/
def execRevert (s : State) : Result :=
  whileRunning (fun s => closeIf s.preferred createsRevert s) s

/-- The window at which a skew is accepted (R42). -/
def acceptsSkew (before after : State) : Bool :=
  decide (before.align.accepted ≠ after.align.accepted)

/-- SKEW_ACCEPTANCE (R42, R47). -/
def execSkewAcceptance (p : Port) (s : State) : Result :=
  whileRunning (closeIf p acceptsSkew) s

/-- The window at which the on-air port's delay is recentred (R50). -/
def recentresOnAir (p : Port) (before after : State) : Bool :=
  decide (before.ctrl.mode = .on p) && decide (before.align.delays.get p ≠ after.align.delays.get p)

/-- The recentre at the next window close of the on-air port, in ON_X (R50). -/
def recentreAtWindow (s : State) : State :=
  match s.ctrl.mode with
  | .on x => closeIf x (recentresOnAir x) s
  | .idle => s
  | .opening _ => s
  | .fade _ => s

/-- RECENTRE (R50). -/
def execRecentre (s : State) : Result :=
  whileRunning recentreAtWindow s

/-- Whether a deframer's message in progress times out at this close (R124). -/
def timesOut (d : Deframer) : Bool :=
  d.busy && decide (Config.messageAge ≤ d.age + 1)

/-- The window at which the message in progress times out (R124). -/
def timesOutIn (p : Port) (before _after : State) : Bool :=
  timesOut ((windowUpToAge p (windowOutcome (before.ports.get p).store) before).ports.get p).deframer

/-- TIMEOUT (R124). -/
def execTimeout (p : Port) (s : State) : Result :=
  whileRunning (closeIf p (timesOutIn p)) s

/-! ### Events of a panel sampling and of the program port (log 3) -/

/-- The levels of both contacts when one is closed and the other is at this level. -/
def contactLevels (contact : Port) (otherClosed : Bool) : Bool × Bool :=
  match contact with
  | .a => (true, otherClosed)
  | .b => (otherClosed, true)

/-- The panel sampling at which a contact is pressed, if its debounce count becomes 4 there (R77, R78). -/
def pressAtSampling (contact : Port) (otherClosed : Bool) (s : State) : State :=
  let s1 := atPanel s
  let levels := contactLevels contact otherClosed
  if pressedAt true (s1.ctrl.debounce.get contact) then samplePanel levels.1 levels.2 s1 else s

/-- PRESS (R78). -/
def execPress (contact : Port) (otherClosed : Bool) (s : State) : Result :=
  whileRunning (pressAtSampling contact otherClosed) s

/-- The program span that takes the sync countdown from 1 to 0 is made and sent (R18). -/
def sendLastSync (s : State) : State :=
  if s.prog.countdown = 1 then finishSamples (atSample s) else s

/-- SYNC_COUNTDOWN_EXPIRY (R18). -/
def execSyncCountdownExpiry (s : State) : Result :=
  whileRunning sendLastSync s

end Sys2Proof.Machine
end

