-- ==== Sys2Proof/Machine/StartUp.lean ====
section
/-! DEFINITION. The settings store and start-up (10): the judgement of the stored copy, the start-up order, RESET_N, power loss, and the
completion of a store write. -/

namespace Sys2Proof.Machine

/-! ### The stored copy (R150) -/

/-- Whether every field of every table lies within its range (R100). The ROUTE fields do by their type. -/
def tablesInRange (t : Tables) : Bool :=
  t.route.length == 64
    && (t.curve.length == 260 && t.curve.all fun v => decide (v ≤ 32768))
    && (t.profile.length == 28 && (List.range 28).all fun i => profileInRange i (t.field i))

/-- Whether a stored copy is valid: its check word, the ranges, the curve shapes and the threshold order (R150). -/
def storeValid (c : StoredCopy) : Bool :=
  c.check == crc16 (storeBytes c.contents)
    && tablesInRange c.contents.tables && curvesShaped c.contents.tables && thresholdsOrdered c.contents.tables

/-- What start-up loads: the contents of a valid copy, or nothing (R155 step 3). -/
def loadable (copy : Option StoredCopy) : Option StoreContents :=
  match copy with
  | some c => if storeValid c then some c.contents else none
  | none => none

/-- An interruption of a write in flight: no record, and the stored copy is invalid (R153). With the store IDLE the copy stands. -/
def interruptWrite (store : SettingsStore) : SettingsStore :=
  match store.writing with
  | some _ => ⟨none, none⟩
  | none => store

/-! ### Start-up (R155) -/

/-- The live tables after the load: the stored tables, or the factory tables (R155 step 3, R111). -/
def loadedTables : Option StoreContents → Tables
  | some c => c.tables
  | none => factoryTables

/-- The records the load queues: STORE_INVALID with stamp 0 when nothing was valid (R155 step 3). -/
def loadRecords : Option StoreContents → List EventRecord
  | some _ => []
  | none => [⟨.storeInvalid, 0⟩]

/-- A stored LATCHED is taken as OPEN at power-up (R120). -/
def lockFromStore (l : LockRecord) : LockRecord :=
  { l with mode := if l.mode = .latched then .openMode else l.mode }

/-- The lock record after a start-up (R120, R155 step 5). -/
def lockAfter (kind : ResetKind) (held : LockRecord) (loaded : Option StoreContents) : LockRecord :=
  match kind with
  | .hardReset => held
  | .powerUp => match loaded with
    | some c => lockFromStore c.lock
    | none => openLock

/-- The kind of a start-up: from a part without power it is a power-up, even when RESET_N was held low (R154). A power-up named for a
part that is held, or runs, implies the loss of power before it (log 15). -/
def startKind (run : RunState) (kind : ResetKind) : ResetKind :=
  match run with
  | .off => .powerUp
  | .held => kind
  | .running => kind

/-- The start-up (R155): the queue emptied, RATE sampled, the store loaded, the staged copy and the lock record set, and every block
at its reset values. It completes before the first span period. -/
def startUp (kind : ResetKind) (rate : Rate) (s : State) : State :=
  let store := interruptWrite s.store
  let loaded := loadable store.copy
  State.fresh s.pending rate { s.pins with resetN := false } (loadedTables loaded)
    (lockAfter (startKind s.run kind) s.tables.lock loaded) store.copy (loadRecords loaded) s.free

/-- START_UP (R155). A START_UP of a part that runs implies the loss of power, or the assertion of RESET_N, before it (log 15). -/
def execStartUp (kind : ResetKind) (rate : Rate) (s : State) : Result :=
  complete (startUp kind rate s)

/-- RESET_N is asserted: a part that runs is held in reset, its state frozen, and a write in flight is interrupted (R153, R154). -/
def assertReset (s : State) : State :=
  let s1 := { s with pins := { s.pins with resetN := true } }
  match s.run with
  | .running => { s1 with run := .held, store := interruptWrite s.store }
  | .held => s1
  | .off => s1

/-- RESET_N_ASSERTED (R154). -/
def execResetNAsserted (s : State) : Result :=
  complete (assertReset s)

/-- Power goes: a write in flight is interrupted, the stored copy is kept otherwise, and everything else the part held is lost (R153;
log 16 gives what it reads as until the next start-up). -/
def losePower (s : State) : State :=
  { State.fresh s.pending s.rate s.pins factoryTables openLock (interruptWrite s.store).copy [] s.free with run := .off }

/-- POWER_LOSS (R153). -/
def execPowerLoss (s : State) : Result :=
  complete (losePower s)

/-! ### The completion of a write (R152) -/

/-- The copy a completed write leaves: the snapshot with its check word (R152). -/
def copyOf (c : StoreContents) : StoredCopy :=
  { contents := c, check := crc16 (storeBytes c) }

/-- A write in flight ends with this result of its verify (R152). With none in flight nothing completes. -/
def completeWrite (verified : Bool) (s : State) : State :=
  match s.store.writing with
  | none => s
  | some c =>
    if verified then offerEvent .storeDone { s with store := ⟨some (copyOf c), none⟩ }
    else offerEvent .storeFail { s with store := ⟨none, none⟩ }

/-- STORE_COMPLETION (R152). -/
def execStoreCompletion (verified : Bool) (s : State) : Result :=
  whileRunning (completeWrite verified) s

end Sys2Proof.Machine
end

