-- ==== Sys2Proof/Machine/Dispatch.lean ====
section
/-! DEFINITION. The dispatch: one arm per command, each one direct call of its meaning. -/

namespace Sys2Proof.Machine

def exec (i : Instr) (s : State) : Host.Outcome State Fault Refusal :=
  match i with
  | .startUp kind rate => Sys2Proof.Machine.execStartUp kind rate s
  | .resetNAsserted => Sys2Proof.Machine.execResetNAsserted s
  | .powerLoss => Sys2Proof.Machine.execPowerLoss s
  | .spanComplete p bytes => Sys2Proof.Machine.execSpanComplete p bytes s
  | .spanPeriodStart => Sys2Proof.Machine.execSpanPeriodStart s
  | .syncCountdownExpiry => Sys2Proof.Machine.execSyncCountdownExpiry s
  | .programSample => Sys2Proof.Machine.execProgramSample s
  | .transitionStart => Sys2Proof.Machine.execTransitionStart s
  | .reversal => Sys2Proof.Machine.execReversal s
  | .pendingSwitchFire => Sys2Proof.Machine.execPendingSwitchFire s
  | .fadeEnd => Sys2Proof.Machine.execFadeEnd s
  | .adoption => Sys2Proof.Machine.execAdoption s
  | .windowClose p => Sys2Proof.Machine.execWindowClose p s
  | .absentRunReachesNDown p => Sys2Proof.Machine.execAbsentRunReachesNDown p s
  | .cleanCountReachesQOk p => Sys2Proof.Machine.execCleanCountReachesQOk p s
  | .revert => Sys2Proof.Machine.execRevert s
  | .skewAcceptance p => Sys2Proof.Machine.execSkewAcceptance p s
  | .recentre => Sys2Proof.Machine.execRecentre s
  | .timeout p => Sys2Proof.Machine.execTimeout p s
  | .panelSampling forceA forceB showlock => Sys2Proof.Machine.execPanelSampling forceA forceB showlock s
  | .press contact otherClosed => Sys2Proof.Machine.execPress contact otherClosed s
  | .storeCompletion verified => Sys2Proof.Machine.execStoreCompletion verified s
  | .state p tag operands => Sys2Proof.Machine.execState p tag operands s
  | .read p tag operands => Sys2Proof.Machine.execRead p tag operands s
  | .write p tag operands => Sys2Proof.Machine.execWrite p tag operands s
  | .apply p tag operands => Sys2Proof.Machine.execApply p tag operands s
  | .discard p tag operands => Sys2Proof.Machine.execDiscard p tag operands s
  | .switch p tag operands => Sys2Proof.Machine.execSwitch p tag operands s
  | .auto p tag operands => Sys2Proof.Machine.execAuto p tag operands s
  | .lock p tag operands showlock => Sys2Proof.Machine.execLock p tag operands showlock s
  | .events p tag operands => Sys2Proof.Machine.execEvents p tag operands s
  | .flush p tag operands => Sys2Proof.Machine.execFlush p tag operands s
  | .save p tag operands => Sys2Proof.Machine.execSave p tag operands s
  | .counters p tag operands => Sys2Proof.Machine.execCounters p tag operands s
  | .ident p tag operands => Sys2Proof.Machine.execIdent p tag operands s
  | .badVerb p tag verb operands => Sys2Proof.Machine.execBadVerb p tag verb operands s

end Sys2Proof.Machine
end

