-- ==== Sys2Proof/Safety.lean ====
section
/-! DEFINITION. What a sound state of the part is: the bounds and relations that the rules state of every state, and that every step keeps.
The part has no unsafe outcome of its own; a run is safe when each of its states is sound. -/

namespace Sys2Proof.Machine

/-- Something said of both ports. -/
abbrev onBothPorts (P : Port → Prop) : Prop :=
  P .a ∧ P .b

/-- The event queue holds whole records of at most 1024 bytes, and the lost count is at most 255 (R145). -/
abbrev State.EventsFit (s : State) : Prop :=
  fillOf s.events.records ≤ Config.eventBytes ∧ s.events.lost ≤ 255

/-- Every field of every table lies in its range in both copies (R100), and the live copy has the curve shapes and the threshold
order of validation (R102). -/
abbrev State.TablesSound (s : State) : Prop :=
  tablesInRange s.tables.live = true ∧ tablesInRange s.tables.staged = true ∧ curvesShaped s.tables.live = true
    ∧ thresholdsOrdered s.tables.live = true

/-- Both delays lie in 64..2016, in the alignment record and as the program span in progress is read (R43). -/
abbrev State.DelaysInRange (s : State) : Prop :=
  onBothPorts fun p =>
    (64 ≤ s.align.delays.get p ∧ s.align.delays.get p ≤ 2016) ∧ (64 ≤ s.mixer.delays.get p ∧ s.mixer.delays.get p ≤ 2016)

/-- A pending switch record exists only in ON_X toward the other port, with no scheduled start beside it (R70). -/
abbrev State.SwitchArmed (s : State) : Prop :=
  ∀ r ∈ s.ctrl.pendingSwitch, s.ctrl.mode = .on r.target.other ∧ s.ctrl.scheduled = none

/-- The monitor's lock view follows the receiver, a port outside LOCKED is FAILED with score 255 (R22, R33), and scores and clean
counts stay in 0..255 (R30, R33). -/
abbrev State.VerdictsNeedLock (s : State) : Prop :=
  onBothPorts fun p =>
    ((s.health.get p).lockView = true ↔ (s.ports.get p).rx = .locked)
      ∧ ((s.ports.get p).rx ≠ .locked → (s.health.get p).verdict = .failed ∧ (s.health.get p).score = 255)
      ∧ (s.health.get p).score ≤ 255 ∧ (s.health.get p).clean ≤ 255

/-- The buffers of one show port hold no more than the spec gives them: two spans (R4), 64 slots (1.6), a body of 96 bytes and an
age below 65 (R121, R124), four requests (R125), 512 reply bytes (R128). -/
abbrev ShowPort.Bounded (x : ShowPort) : Prop :=
  x.store.length ≤ 2 ∧ x.ring.length = 64 ∧ x.deframer.body.length ≤ 96 ∧ x.deframer.age ≤ 64 ∧ x.requests.length ≤ 4
    ∧ x.replies.length ≤ 512

/-- The buffers of both ports are bounded, at most 32 samples of a period are made (R92), and the debounce counts stay in 0..4
(R77). -/
abbrev State.BuffersBounded (s : State) : Prop :=
  onBothPorts (fun p => (s.ports.get p).Bounded) ∧ s.clock.made ≤ 32 ∧ onBothPorts (fun p => s.ctrl.debounce.get p ≤ 4)

/-- A sound state. -/
abbrev State.Sound (s : State) : Prop :=
  s.EventsFit ∧ s.TablesSound ∧ s.DelaysInRange ∧ s.SwitchArmed ∧ s.VerdictsNeedLock ∧ s.BuffersBounded

/-! ### Terms the statements use -/

/-- The part runs and the first sample of a program span is the next one made (R92). -/
abbrev State.AtSpanStart (s : State) : Prop :=
  s.run = .running ∧ s.clock.begun = true ∧ s.clock.made = 0

/-- The part runs and the next sample made is neither the first nor the last of its program span, and reports no mark (R92, R93). -/
abbrev State.MidSpan (s : State) : Prop :=
  s.run = .running ∧ s.clock.begun = true ∧ 0 < s.clock.made ∧ s.clock.made < 31 ∧ s.sampleMark = none

/-- The part runs, and the next program sample is one at which nothing is answered: no answer is owed to a span start, and no pending
record waits when a mark is reported (R92). -/
abbrev State.Unanswered (s : State) : Prop :=
  s.run = .running ∧ s.clock.begun = true ∧ s.clock.made < 32
    ∧ (s.clock.made = 0 → s.mixer.owedStart = false ∧ s.mixer.owedSwitch = false ∧ s.mixer.owedApply = false)
    ∧ (s.sampleMark ≠ none → s.ctrl.pendingSwitch = none ∧ s.tables.apply = none)

/-- Neither port's request queue holds a message. -/
abbrev State.NoRequests (s : State) : Prop :=
  onBothPorts fun p => (s.ports.get p).requests = []

/-- The part runs, its 32 program samples are made, no request waits, and port p's window is the next thing to happen (R2). -/
abbrev State.WindowDue (s : State) (p : Port) : Prop :=
  s.run = .running ∧ s.clock.begun = true ∧ s.clock.made = 32 ∧ s.clock.closed.get p = false ∧ s.NoRequests

/-- A request that completes at port p is taken at once: the part runs, the samples of a span period that has begun are made (R92), no
request waits, and p's reply queue has the 194 free bytes of R126. -/
abbrev State.CanServe (s : State) (p : Port) : Prop :=
  s.run = .running ∧ (s.clock.begun = true → s.clock.made = 32) ∧ s.NoRequests ∧ (s.ports.get p).replies.length + 194 ≤ 512

/-! ### What one sample and one window read, in the rules' own terms -/

/-- The time at which port p's ring is read for the next program sample: T - D (R53), as a number below 2^40. -/
def State.readTime (s : State) (p : Port) : Nat :=
  (32 * s.clock.window.toNat + s.clock.made + 2 ^ 40 - s.mixer.delays.get p % 2 ^ 40) % 2 ^ 40

/-- The ring slot of port p that the next program sample reads (R53). -/
def State.readSlot (s : State) (p : Port) : Slot :=
  (s.ports.get p).ring.getD (s.readTime p / 32 % 64) .empty

/-- The source sample that a slot byte of a ROUTE entry gives at the next program sample: 0 with no slot, at the port's pilot slot and
at an EMPTY ring slot (R83). -/
def State.heard (s : State) (p : Port) (channel : Option (Fin 64)) : Int :=
  match channel with
  | none => 0
  | some k =>
    if s.tables.live.pilot p = some k.val then 0
    else match s.readSlot p with
      | .empty => 0
      | .valid _ audio => (audio.getD (64 * (s.readTime p % 32) + k.val) 0).toInt
      | .predicted _ audio => (audio.getD (64 * (s.readTime p % 32) + k.val) 0).toInt

/-- The song of the mark that the next program sample reads on port p, when it reads the mark offset of a VALID slot with MARK set
(R93). -/
def State.markRead (s : State) (p : Port) : Option Byte :=
  match s.readSlot p with
  | .valid m _ => if m.mark = true ∧ s.readTime p % 32 = m.markOffset then some m.song else none
  | _ => none

/-- The position record that the first sample of a program span stamps in a controller state: from the slot that the source port of
that state is read from (R54, R55). -/
def State.stampedIn (s : State) (mode : Mode) : ProgramPosition :=
  let source : Port → ProgramPosition := fun x => match s.readSlot x with
    | .empty => { s.align.position with position := s.align.position.position + 32 }
    | .valid m _ => ⟨m.position + BitVec.ofNat 40 (s.readTime x % 32), m.run, m.song⟩
    | .predicted m _ => ⟨m.position + BitVec.ofNat 40 (s.readTime x % 32), m.run, m.song⟩
  match mode with
  | .idle => { s.align.position with run := false }
  | .opening x => source x
  | .on x => source x
  | .fade x => source x

/-- The class that governs a channel (R82). -/
def State.classOf (s : State) (e : RouteEntry) : RouteClass :=
  if e.cls = .byDefault then s.tables.live.defaultClass else e.cls

/-- The weight on port p of a channel whose sample is mixed at fade position q (the table of R84, with the curve of R85). -/
def State.gain (s : State) (q : Nat) (p : Port) (e : RouteEntry) : Int :=
  let curve := if s.ctrl.aligned then e.curve.val else s.tables.live.unalignedCurve
  match s.classOf e with
  | .pinA => if p = .a then 32768 else 0
  | .pinB => if p = .b then 32768 else 0
  | .cut => match s.ctrl.mode with
    | .idle => 0
    | .opening x => if p = x then 32768 else 0
    | .on x => if p = x then 32768 else 0
    | .fade x => if p = x then 0 else 32768
  | .follow => match s.ctrl.mode with
    | .idle => 0
    | .opening x => if p = x then evalCurve s.tables.live curve s.ctrl.len q else 0
    | .on x => if p = x then 32768 else 0
    | .fade x => evalCurve s.tables.live curve s.ctrl.len (if p = x then s.ctrl.len - q else q)
  | _ => 0

/-- The rounded sum of one channel mixed at fade position q, before it is limited (R90). -/
def State.rounded (s : State) (q : Nat) (e : RouteEntry) : Int :=
  (s.heard .a e.slotA * s.gain q .a e + s.heard .b e.slotB * s.gain q .b e + 16384) / 32768

/-- The outcome of port p's next window (R3, R5). -/
def State.outcome (s : State) (p : Port) : WindowOutcome :=
  match (s.ports.get p).store with
  | [] => .absent
  | bytes :: _ => judgeSpan bytes

/-- The valid span of a given kind that port p's next window takes. -/
def State.taken (s : State) (p : Port) (kind : SpanKind) : Option ForwardSpan :=
  match s.outcome p with
  | .valid f => if f.kind = kind then some f else none
  | _ => none

/-- No lane byte comes with port p's next window. -/
abbrev State.LaneQuiet (s : State) (p : Port) : Prop :=
  ∀ f : ForwardSpan, s.outcome p = .valid f → f.lane = []

/-- The health record that port p's next LOCKED window is judged against: at a lock entry the values of R22. -/
def State.judged (s : State) (p : Port) : HealthRecord :=
  if (s.ports.get p).rx = .locked then s.health.get p
  else { s.health.get p with score := 255, verdict := .failed, clean := 0, lockView := true, lastData := none, lastRunning := none }

/-- Whether port p's next window, a LOCKED one, raises a fault (R23 to R28). -/
def State.raises (s : State) (p : Port) (k : FaultKind) : Bool :=
  let h := s.judged p
  match k with
  | .absent => (s.ports.get p).store.isEmpty
  | .check => match s.outcome p with
    | .check _ => true
    | _ => false
  | .sequence => decide ((s.ports.get p).rx = .locked) && (match s.taken p .data, s.taken p .idle with
      | some f, _ => f.number != (s.ports.get p).expected + 1
      | _, some f => f.number != (s.ports.get p).expected + 1
      | none, none => false)
  | .stall => match s.taken p .data, h.lastData with
    | some f, some e => f.heartbeat == e.heartbeat
    | _, _ => false
  | .stopped => match h.lastRunning, (s.health.get p.other).lastData with
    | some here, some e =>
      ((s.taken p .idle).isSome || (s.taken p .data).any fun f => !f.run) && e.run
        && (let ahead := ((e.position.toNat : Int) - here.toNat - 32 * s.tables.live.stopGrace) % 2 ^ 40
            decide (0 < ahead ∧ ahead ≤ 2 ^ 39))
    | _, _ => false
  | .jump => match s.taken p .data, h.lastData with
    | some f, some e => f.run && e.run
        && decide (f.position.toNat ≠ (e.position.toNat + 32 * (s.clock.window - e.window).toNat) % 2 ^ 40)
    | _, _ => false
  | .pilot => match s.taken p .data, s.tables.live.pilot p with
    | some f, some c => (List.range 32).any fun j => (f.audio.getD (64 * j + c) 0).toNat != 32 * f.number.toNat + j
    | _, _ => false

/-- The sum of the weights of the faults that port p's next window raises (R30). -/
def State.weightSum (s : State) (p : Port) : Nat :=
  (faultOrder.map fun k => if s.raises p k then s.tables.live.weight k else 0).sum

/-- The first mark of the program span in progress once the next program sample is made: the offset held, else this sample's when it
reports one (R95). -/
def State.markAfter (s : State) : Option Nat :=
  match s.mixer.firstMark with
  | some j => some j
  | none => if s.sampleMark.isSome then some s.clock.made else none

/-- The 64 program samples of the next program time, mixed at fade position q from the state as it stands (R90). -/
def State.mixedAt (s : State) (q : Nat) : List Sample :=
  s.tables.live.route.map fun e => BitVec.ofInt 24 (max (-8388608) (min 8388607 (s.rounded q e)))

/-- The saturation count after them: each limited channel counts once (R91). -/
def State.satAt (s : State) (q : Nat) : Nat :=
  min 65535 (s.ctrl.sat + s.tables.live.route.countP fun e => decide (8388607 < s.rounded q e ∨ s.rounded q e < -8388608))

/-- The state `t` with the next sample `row` of the program span added to those that `s` held, or, with the 32nd, the span sent: SYNC
while the countdown is above 0, else DATA at this position, with its first mark (R18, R95, R96). -/
def State.withRow (s t : State) (row : List Sample) (position : ProgramPosition) : State :=
  let rows := s.mixer.rows ++ [row]
  let number : SpanNumber := BitVec.ofNat 12 s.clock.window.toNat
  { t with
    clock := { s.clock with made := s.clock.made + 1 }
    mixer := { t.mixer with
      earlyMark := none
      rows := if s.clock.made = 31 then [] else rows
      firstMark := if s.clock.made = 31 then none else s.markAfter }
    prog :=
      if s.clock.made = 31 then
        if 0 < s.prog.countdown then { s.prog with countdown := s.prog.countdown - 1 }
        else { s.prog with heartbeat := s.prog.heartbeat + 1 }
      else s.prog
    sentProgram :=
      if s.clock.made = 31 then
        some (if 0 < s.prog.countdown then .sync number else .data number s.prog.heartbeat s.markAfter position rows)
      else s.sentProgram }

/-- The event queue after records of these contents are offered in this order with the present stamp (R143, R145). -/
def State.recording (s : State) (bodies : List EventBody) : EventQueue :=
  bodies.foldl (fun q b => q.offer ⟨b, BitVec.ofNat 32 s.clock.window.toNat⟩) s.events

/-- The state `u` with the reply to port p's request placed behind the reply bytes that `s` held (R128), WAIT clear and the pointer on
the other port (R125, R126), and the lines settled. -/
def State.served (s u : State) (p : Port) (tag verb : Byte) (status : Status) (payload : List Byte) : State :=
  let reply := [tag, verb, statusCode status] ++ bytesOfNat 2 s.clock.window.toNat ++ payload
  State.settleLines
    { u with
      ports := u.ports.set p
        { u.ports.get p with requests := [], wait := false, replies := (s.ports.get p).replies ++ frameMessage reply },
      pointer := p.other }

end Sys2Proof.Machine
end

