-- ==== Sys2Proof/Certificates/Slice0/Obligations.lean ====
section
/-! DEFINITION. The statements for the provers: what the rules of the spec say each command does, what each command leaves alone, and the
invariants that every step keeps. -/

open Sys2Proof Sys2Proof.Machine

/-! ## The step, start-up and the settings store -/

/-- The step takes the command at the front of the queue and runs it on the state with the rest of the queue; with an empty queue the
part idles (log 1: DESIGN CHOICE). -/
def Obligations.StepRunsTheFrontCommand : Prop :=
  (∀ (s : State) (c : Instr) (rest : List Instr), s.pending = c :: rest → step s = exec c { s with pending := rest })
    ∧ ∀ s : State, s.pending = [] → step s = .next s

/-- Every command completes in every state, with no fault and no refusal, and leaves the queue of commands alone: the spec names nothing
that stops the part, and each row is one indivisible step. -/
def Obligations.EveryCommandCompletes : Prop :=
  ∀ (c : Instr) (s : State), ∃ t, exec c s = .next t ∧ t.pending = s.pending

/-- R79, R147, R154: after every command the lamps follow the controller state and ALERT its condition, while the part runs; both lamps are
dark and ALERT is released while RESET_N holds it. That they are so without power as well is the model's choice (log 16). -/
def Obligations.LinesFollowTheState : Prop :=
  ∀ (c : Instr) (s t : State), exec c s = .next t →
    if t.run = .running then
      (∀ x : Port, (if x = .a then t.lines.tallyA else t.lines.tallyB) = true
        ↔ t.ctrl.mode = .on x ∨ t.ctrl.mode = .opening x ∨ t.ctrl.mode = .fade .a ∨ t.ctrl.mode = .fade .b)
      ∧ (t.lines.alert = true ↔ 0 < t.events.lost
        ∨ ∃ r ∈ t.events.records, r.body.code < 16 ∧ t.tables.live.alertMask.testBit r.body.code = true)
    else t.lines = ⟨false, false, false⟩

/-- R155 with R1, R20, R38, R56, R81, R98, R111, R120, R129, R149: what a start-up leaves, from a part that is held in reset or has no
power. The stored copy is judged; its tables, or the factory ones with STORE_INVALID, become live and staged; the lock record comes
from the store at a power-up and stands at a hard reset; every block takes its reset values, the delays the loaded G. Choices of the
model (log 15): a part without power is powered up whatever kind the command names (R154), and a START_UP that names power-up on a part
that RESET_N holds, with no POWER_LOSS before it, takes the lock record from the store, a loss of power implied. -/
def Obligations.StartUpLoadsAndResets : Prop :=
  ∀ (s : State) (kind : ResetKind) (rate : Rate), s.run ≠ .running →
    let copy := if s.store.writing = none then s.store.copy else none
    let loaded : Option StoreContents := match copy with
      | some c => if storeValid c then some c.contents else none
      | none => none
    let live := match loaded with
      | some c => c.tables
      | none => ⟨factoryRoute, factoryCurve, factoryProfile⟩
    let lock : LockRecord :=
      if s.run = .held ∧ kind = .hardReset then s.tables.lock
      else match loaded with
        | some c => ⟨c.lock.code, c.lock.complement, if c.lock.mode = .line then .line else .openMode⟩
        | none => ⟨0, false, .openMode⟩
    let port : ShowPort :=
      { store := [], rx := .down, sync := 0, absentRun := 0, expected := 0, lastValid := none, ring := List.replicate 64 .empty,
        counters := ⟨0, 0, 0, 0, 0, 0, 0, 0, 0, 0, 0⟩, deframer := ⟨.hunt, [], false, 0, none⟩, requests := [], wait := false,
        replies := [] }
    let health : HealthRecord :=
      { score := 255, verdict := .failed, cause := .notLocked, clean := 0, lockView := false, lastData := none, lastRunning := none }
    let g := live.guardDelay
    exec (.startUp kind rate) s = .next (State.settleLines
      { pending := s.pending
        run := .running
        rate := rate
        pins := { s.pins with resetN := false }
        lines := s.lines
        clock := ⟨0, false, 0, ⟨false, false⟩, false⟩
        ports := ⟨port, port⟩
        prog := ⟨16, 0⟩
        health := ⟨health, health⟩
        align := ⟨none, none, 0, ⟨g, g⟩, false, false, false, ⟨0, 0⟩, ⟨.unreported, .unreported⟩, ⟨0, false, 0⟩⟩
        ctrl := ⟨.idle, 0, 0, false, 0, none, none, true, false, 0, ⟨0, 0⟩⟩
        mixer := ⟨[], none, ⟨g, g⟩, false, false, false, none⟩
        tables := ⟨live, live, none, lock⟩
        pointer := .a
        events := ⟨if loaded = none then [⟨.storeInvalid, 0⟩] else [], 0⟩
        store := ⟨copy, none⟩
        sentReturn := ⟨none, none⟩
        sentProgram := none
        free := s.free })

/-- R150: the stored copy is valid exactly when its check word matches, every stored field is in its range, each curve has its shape
and the thresholds are in order. Ranges of the ROUTE entries and of the lock record hold by their types. -/
def Obligations.StoredCopyIsJudgedWhole : Prop :=
  ∀ c : StoredCopy, storeValid c = true ↔
    let t := c.contents.tables
    c.check = crc16 (storeBytes c.contents)
      ∧ t.route.length = 64 ∧ t.curve.length = 260 ∧ t.profile.length = 28
      ∧ (∀ v ∈ t.curve, v ≤ 32768) ∧ (∀ i < 28, profileInRange i (t.profile.getD i 0) = true)
      ∧ (∀ n < 4, t.curve.getD (65 * n) 1 = 0 ∧ t.curve.getD (65 * n + 64) 0 = 32768
          ∧ ∀ i < 64, t.curve.getD (65 * n + i) 0 ≤ t.curve.getD (65 * n + i + 1) 0)
      ∧ t.tOk < t.tWarn ∧ t.tWarn ≤ t.tFail

/-- R153, R154: RESET_N holds a part that runs, with its state frozen, the lamps dark, ALERT released and a write in flight interrupted.
Power that goes keeps of the part the stored copy alone, invalid when a write was in flight. Three clauses are the model's: a part that
is held already, or has no power, only sees the line (log 32), the lines are dark and released without power, and what the rest reads
as then is no clause of this (log 16). -/
def Obligations.ResetAndPowerLossStopThePart : Prop :=
  ∀ s : State,
    let store : SettingsStore := if s.store.writing = none then s.store else ⟨none, none⟩
    exec .resetNAsserted s = .next (
      if s.run = .running then
        { s with run := .held, pins := { s.pins with resetN := true }, lines := ⟨false, false, false⟩, store := store }
      else { s with pins := { s.pins with resetN := true }, lines := ⟨false, false, false⟩ })
    ∧ ∃ t, exec .powerLoss s = .next t ∧ t.run = .off ∧ t.lines = ⟨false, false, false⟩ ∧ t.store = ⟨store.copy, none⟩

/-- R154: while RESET_N holds the part, a command other than START_UP, RESET_N_ASSERTED and POWER_LOSS changes nothing: no window closes, no
sample is mixed, no request is executed, no record is placed. That a part without power is the same, its lines dark and released, is
the model's choice (log 16). -/
def Obligations.HeldPartIgnoresCommands : Prop :=
  ∀ (c : Instr) (s : State), s.run ≠ .running → (∀ kind rate, c ≠ .startUp kind rate) → c ≠ .resetNAsserted → c ≠ .powerLoss →
    exec c s = .next { s with lines := ⟨false, false, false⟩ }

/-- R153, R155: a write interrupted by RESET_N or by the loss of power leaves no stored copy, so the start-up that follows loads the
factory tables and places STORE_INVALID alone. The lock record survives a hard reset, and is open after the power loss. -/
def Obligations.InterruptedWriteLosesTheStore : Prop :=
  ∀ (s : State) (snapshot : StoreContents) (kind : ResetKind) (rate : Rate), s.run = .running → s.store.writing = some snapshot →
    (∃ u t, exec .resetNAsserted s = .next u ∧ exec (.startUp kind rate) u = .next t ∧ t.store = ⟨none, none⟩
      ∧ t.tables.live = factoryTables ∧ t.tables.staged = factoryTables ∧ t.events = ⟨[⟨.storeInvalid, 0⟩], 0⟩
      ∧ t.lines.alert = true ∧ (kind = .hardReset → t.tables.lock = s.tables.lock))
    ∧ ∃ u t, exec .powerLoss s = .next u ∧ exec (.startUp kind rate) u = .next t ∧ t.store = ⟨none, none⟩
      ∧ t.tables.live = factoryTables ∧ t.tables.staged = factoryTables ∧ t.events = ⟨[⟨.storeInvalid, 0⟩], 0⟩
      ∧ t.lines.alert = true ∧ t.tables.lock = ⟨0, false, .openMode⟩

/-- R151, R152, R155: tables in force that are saved, with a write that ends verified, are the tables of the next power-up, and so is the
lock record, with LATCHED taken as OPEN. -/
def Obligations.SavedSettingsSurviveAPowerCycle : Prop :=
  ∀ (s : State) (p : Port) (tag : Byte) (kind : ResetKind) (rate : Rate), s.CanServe p → s.store.writing = none → s.TablesSound →
    ∃ t u v w, exec (.save p tag []) s = .next t ∧ exec (.storeCompletion true) t = .next u ∧ exec .powerLoss u = .next v
      ∧ exec (.startUp kind rate) v = .next w
      ∧ w.tables.live = s.tables.live ∧ w.tables.staged = s.tables.live ∧ w.events = ⟨[], 0⟩
      ∧ w.tables.lock = ⟨s.tables.lock.code, s.tables.lock.complement, if s.tables.lock.mode = .line then .line else .openMode⟩
      ∧ w.store.copy = some ⟨⟨s.tables.live, s.tables.lock⟩, crc16 (storeBytes ⟨s.tables.live, s.tables.lock⟩)⟩

/-- R151, R152: SAVE with the store IDLE snapshots the live tables and the lock record and begins a write, which makes the stored copy
invalid; with a write in flight it is BUSY and the write goes on. The end of the write stores the snapshot with its check word and places
STORE_DONE, or stores nothing and places STORE_FAIL; with no write in flight nothing ends. -/
def Obligations.SaveWritesASnapshot : Prop :=
  ∀ s : State,
    (∀ (p : Port) (tag : Byte), s.CanServe p → exec (.save p tag []) s = .next (
      if s.store.writing = none then
        s.served { s with store := { copy := none, writing := some ⟨s.tables.live, s.tables.lock⟩ } } p tag 0x0B .pending []
      else s.served s p tag 0x0B .busy []))
    ∧ (s.run = .running → ∀ verified : Bool, exec (.storeCompletion verified) s = .next (State.settleLines (
      match s.store.writing with
      | none => s
      | some c =>
        if verified = true then
          { s with store := ⟨some ⟨c, crc16 (storeBytes c)⟩, none⟩, events := s.recording [.storeDone] }
        else { s with store := ⟨none, none⟩, events := s.recording [.storeFail] })))

/-! ## Span periods and program samples -/

/-- R4: a completed span enters the elastic store behind any span held, in every receiver state and unjudged; with two spans held the
oldest is dropped first and the overrun counter goes up. -/
def Obligations.SpanEntersTheElasticStore : Prop :=
  ∀ (s : State) (p : Port) (bytes : List Byte), s.run = .running →
    let x := s.ports.get p
    exec (.spanComplete p bytes) s = .next (State.settleLines { s with ports := s.ports.set p (
      if x.store.length < 2 then { x with store := x.store ++ [bytes] }
      else { x with store := x.store.drop 1 ++ [bytes],
                    counters := { x.counters with overruns := min 4294967295 (x.counters.overruns + 1) } }) })

/-- R2, R17: a span period starts: the window index advances, but for the first period after a start-up; each port forms its return span
from the state as it stands and moves up to 8 bytes from the front of its reply queue into it. With no request waiting that is all, but
for the delays that the program span will be read with (R43), and the answers the span start is owed (R57, R71, R104). Choices of the
model: a period that still owes nothing is asked for (log 2), the return spans are formed before the span start is answered (log 8),
and the answers owed are those of the records that exist at the period start (log 28). -/
def Obligations.PeriodStartSendsReturnSpans : Prop :=
  ∀ s : State, s.run = .running →
    (s.clock.begun = true → s.clock.made = 32 ∧ s.clock.closed = ⟨true, true⟩ ∧ s.clock.panelDone = true) →
    let w := if s.clock.begun then s.clock.window + 1 else s.clock.window
    let sent : Port → ReturnSpan := fun p =>
      { number := BitVec.ofNat 12 w.toNat
        onAir := decide (s.ctrl.mode = .on p ∨ s.ctrl.mode = .opening p ∨ s.ctrl.mode = .fade .a ∨ s.ctrl.mode = .fade .b)
        wait := (s.ports.get p).wait
        fade := s.ctrl.mode.isTransition
        degraded := s.ctrl.degraded
        mode := s.ctrl.mode
        lane := (s.ports.get p).replies.take 8 }
    ∃ t, exec .spanPeriodStart s = .next t ∧ t.clock = ⟨w, true, 0, ⟨false, false⟩, false⟩
      ∧ t.sentReturn = ⟨some (sent .a), some (sent .b)⟩
      ∧ (∀ p, (s.ports.get p).replies.drop 8 <+: (t.ports.get p).replies)
      ∧ (s.NoRequests → t = State.settleLines
        { s with
          clock := ⟨w, true, 0, ⟨false, false⟩, false⟩
          ports := ⟨{ s.ports.a with replies := s.ports.a.replies.drop 8 }, { s.ports.b with replies := s.ports.b.replies.drop 8 }⟩
          mixer := ⟨[], none, s.align.delays, s.ctrl.scheduled.isSome,
            s.ctrl.pendingSwitch.any fun r => decide (r.trigger = .now),
            s.tables.apply.any fun r => decide (r.trigger = .now ∧ r.phase = .waiting), none⟩
          sentReturn := ⟨some (sent .a), some (sent .b)⟩ })

/-- R18, R95, R96: with its 32nd sample a program span is handed over and sent, SYNC while the sync countdown is above 0, which then goes
down, else DATA with the program heartbeat, which then goes up, the rows made before and the row of this sample, and the first mark of
the span, which is this sample's only when no earlier sample had one. A mark of this sample is answered before it is mixed (R92). Log 8:
the span is sent when its samples are made. -/
def Obligations.LastSampleSendsTheProgramSpan : Prop :=
  ∀ s : State, s.run = .running → s.clock.begun = true → s.clock.made = 31 →
    let u := if s.sampleMark = none then s else sampleStep2 s
    let mark : Option Nat := match s.mixer.firstMark with
      | some j => some j
      | none => if s.sampleMark = none then none else some 31
    ∃ t, exec .programSample s = .next t ∧ t.clock = { s.clock with made := 32 } ∧ t.mixer.rows = [] ∧ t.mixer.firstMark = none
      ∧ (0 < s.prog.countdown → t.sentProgram = some (.sync (BitVec.ofNat 12 s.clock.window.toNat))
        ∧ t.prog = { s.prog with countdown := s.prog.countdown - 1 })
      ∧ (s.prog.countdown = 0 → t.prog = { s.prog with heartbeat := s.prog.heartbeat + 1 }
        ∧ t.sentProgram = some (.data (BitVec.ofNat 12 s.clock.window.toNat) s.prog.heartbeat mark s.align.position
          (s.mixer.rows ++ [u.tables.live.route.map fun e => BitVec.ofInt 24 (max (-8388608) (min 8388607
            (u.rounded (if u.ctrl.mode.isTransition then u.ctrl.q + 1 else u.ctrl.q) e)))])))

/-- R18: the SYNC program span that takes the countdown from 1 to 0 is made whole and sent; while the countdown is not 1 there is no such
span and the command leaves the state (log 3). The engine then serves what waits (log 7); with no request waiting the ports stand. -/
def Obligations.CountdownExpiresWithASyncSpan : Prop :=
  ∀ s : State, s.run = .running →
    (s.prog.countdown ≠ 1 → exec .syncCountdownExpiry s = .next s.settleLines)
    ∧ (s.prog.countdown = 1 → s.clock.begun = true → s.clock.made < 32 →
      ∃ t, exec .syncCountdownExpiry s = .next t ∧ t.prog = ⟨0, s.prog.heartbeat⟩
        ∧ t.sentProgram = some (.sync (BitVec.ofNat 12 s.clock.window.toNat)) ∧ t.clock = { s.clock with made := 32 }
        ∧ t.mixer.rows = [] ∧ t.mixer.firstMark = none ∧ t.health = s.health ∧ (s.NoRequests → t.ports = s.ports))

/-- R60, R82 to R85, R90, R91: the mix of a program sample that ends no fade. In a transition the fade position goes up by one first; each
channel is the rounded and limited sum of its two sources, each by its weight; each limited channel counts once. Inside a span, with no
mark, nothing else changes. At any sample at which nothing is answered, the first and the last of a span and one that reports a mark
among them, what else changes is the position record at the first (R54), the first mark (R95), and at the last the sending of the span
(R96); the last is asked for with no request waiting (log 7). -/
def Obligations.SampleIsTheWeightedMix : Prop :=
  (∀ s : State, s.MidSpan →
    let q := if s.ctrl.mode.isTransition then s.ctrl.q + 1 else s.ctrl.q
    (s.ctrl.mode.isTransition = true → q ≠ s.ctrl.len) →
    exec .programSample s = .next (State.settleLines
      { s with
        clock := { s.clock with made := s.clock.made + 1 }
        mixer := { s.mixer with rows := s.mixer.rows
          ++ [s.tables.live.route.map fun e => BitVec.ofInt 24 (max (-8388608) (min 8388607 (s.rounded q e)))] }
        ctrl := { s.ctrl with q := q, sat := min 65535 (s.ctrl.sat
          + s.tables.live.route.countP fun e => decide (8388607 < s.rounded q e ∨ s.rounded q e < -8388608)) } }))
  ∧ ∀ s : State, s.Unanswered → (s.clock.made = 31 → s.NoRequests) →
    let q := if s.ctrl.mode.isTransition then s.ctrl.q + 1 else s.ctrl.q
    (s.ctrl.mode.isTransition = true → q ≠ s.ctrl.len) →
    ∃ t, exec .programSample s = .next t ∧ (s.clock.made ≠ 0 → t.align.position = s.align.position)
      ∧ t = State.settleLines (s.withRow
        { s with ctrl := { s.ctrl with q := q, sat := s.satAt q }, align := { s.align with position := t.align.position } }
        (s.mixedAt q) t.align.position)

/-- R84, R87, R90, R91: outside transitions nothing is mixed and nothing saturates: a FOLLOW or CUT channel carries the on-air port's
source unchanged, or silence in IDLE, a pinned channel its own port's, a MUTE channel 0. So it is for the sample inside a span, and for
what any sample of a span gives each channel before it is limited. -/
def Obligations.SteadySampleCarriesOnePort : Prop :=
  let carried : State → RouteEntry → Int := fun s e =>
    match s.classOf e with
    | .pinA => s.heard .a e.slotA
    | .pinB => s.heard .b e.slotB
    | .mute => 0
    | .byDefault => 0
    | _ => if s.ctrl.mode = .on .a then s.heard .a e.slotA else if s.ctrl.mode = .on .b then s.heard .b e.slotB else 0
  (∀ s : State, s.MidSpan → s.ctrl.mode.isTransition = false → s.ctrl.sat ≤ 65535 →
    exec .programSample s = .next (State.settleLines
      { s with
        clock := { s.clock with made := s.clock.made + 1 }
        mixer := { s.mixer with rows := s.mixer.rows
          ++ [s.tables.live.route.map fun e => BitVec.ofInt 24 (carried s e)] } }))
  ∧ ∀ (s : State) (q : Nat) (e : RouteEntry), s.ctrl.mode.isTransition = false →
    s.rounded q e = carried s e ∧ -8388608 ≤ s.rounded q e ∧ s.rounded q e ≤ 8388607

/-- R88, R89: a curve with the shape of the live curves rises from 0 to 32768 without a fall over the whole fade and stays within its
points; the linear curve gives the floor of 32768 p / F. -/
def Obligations.CurvesRiseFromSilenceToUnity : Prop :=
  ∀ (t : Tables) (n len : Nat), 0 < len →
    let c := fun i : Nat => t.curve.getD (65 * n + i) 0
    evalCurve t n len len = 32768
    ∧ (c 0 = 0 → evalCurve t n len 0 = 0)
    ∧ (∀ p < len, min (c (64 * p / len)) (c (64 * p / len + 1)) ≤ evalCurve t n len p
        ∧ evalCurve t n len p ≤ max (c (64 * p / len)) (c (64 * p / len + 1)))
    ∧ ((∀ i < 64, c i ≤ c (i + 1)) → c 64 = 32768 → ∀ p p', p ≤ p' → p' ≤ len → evalCurve t n len p ≤ evalCurve t n len p')
    ∧ ((∀ i ≤ 64, c i = 512 * i) → ∀ p ≤ len, evalCurve t n len p = 32768 * p / len)

/-- R54, R55: the first sample of a program span stamps the span's show position, RUN and song from the slot that the port named by the
controller state is read from, at that port's delay; an EMPTY slot moves the position on by 32 and leaves RUN and song, and IDLE clears
RUN and leaves the rest. The controller state is that of the answers to the span start and to a mark of that sample, in which the sample
is mixed (log 14: the model's reading of R54), the controller having answered before table memory, so that a fade length is of the tables
before an adoption at that sample (log 13: the model's choice of the two orders of R109). First for every first sample; then the state
those answers leave: the one that stands when nothing is answered, the one a scheduled start leads to, and the one a pending switch record
leads to, at the span start or at a mark. -/
def Obligations.FirstSampleRestampsTheSpan : Prop :=
  let stamps : State → Mode → Prop := fun s mode => ∃ t, exec .programSample s = .next t ∧ t.align.position = s.stampedIn mode
  (∀ s : State, s.AtSpanStart → stamps s (sampleStep2 (sampleStep1 s)).ctrl.mode)
  ∧ (∀ s : State, s.AtSpanStart → s.mixer.owedStart = false → s.mixer.owedSwitch = false →
    (s.sampleMark ≠ none → s.ctrl.pendingSwitch = none) → stamps s s.ctrl.mode)
  ∧ (∀ (s : State) (act : StartAction) (y : Port) (cause : SwitchCause), s.AtSpanStart → s.SwitchArmed → s.mixer.owedStart = true →
    s.ctrl.scheduled = some ⟨act, y, cause⟩ →
    (act = .opening ∧ s.ctrl.mode = .idle ∨ act = .fade ∧ s.ctrl.mode = .on y.other ∨ act = .reversal ∧ s.ctrl.mode = .fade y) →
    stamps s (if s.ready y = false then s.ctrl.mode
      else if act = .reversal then .fade y.other
      else if s.tables.live.fadeSpans cause = 0 then .on y
      else if act = .opening then .opening y else .fade y.other))
  ∧ ∀ (s : State) (r : PendingSwitch) (song : Byte), s.AtSpanStart → s.SwitchArmed → s.ctrl.pendingSwitch = some r →
    (r.trigger = .now ∧ s.mixer.owedSwitch = true
      ∨ s.mixer.earlyMark = none ∧ s.mixer.owedApply = false ∧ s.markRead r.target.other = some song
        ∧ (r.trigger = .atMark ∨ r.trigger = .atSong song)) →
    stamps s (if s.ready r.target = false then s.ctrl.mode
      else if s.tables.live.fadeSpans r.cause = 0 then .on r.target else .fade r.target.other)

/-! ## Transitions, reversals, pending records and adoption -/

/-- R57, R58, R59, R69: a scheduled OPEN start in IDLE, or FADE start in ON_X toward the other port, is answered at the span start. With its
target ready the transition begins, or the cut is made when the M field of its cause is 0, with SWITCH_START (and SWITCH_END) recorded;
else the start is withdrawn, and a port on air that is not ready either leaves the part DEGRADED. The sample made then is the one that
PROGRAM_SAMPLE alone makes, the answer included (R92). Choices of the model: the command acts ahead of its sample (log 3), the controller
answers the span start before table memory, which R109 leaves in either order (log 13), and the position in SWITCH_START (R54, R55) is
read in the state just after the transition is set (log 14). -/
def Obligations.ScheduledStartBeginsOrIsWithdrawn : Prop :=
  ∀ (s : State) (act : StartAction) (y : Port) (cause : SwitchCause), s.AtSpanStart → s.mixer.owedStart = true →
    s.ctrl.scheduled = some ⟨act, y, cause⟩ → (act = .opening ∧ s.ctrl.mode = .idle ∨ act = .fade ∧ s.ctrl.mode = .on y.other) →
    let m := s.tables.live.fadeSpans cause
    let mode : Mode := if m = 0 then .on y else if act = .opening then .opening y else .fade y.other
    let aligned := decide (alignmentState s.align = .aligned)
    let position := State.outputPosition { s with ctrl := { s.ctrl with mode := mode } }
    exec .transitionStart s = .next (State.settleLines (
      if s.ready y = true then
        { s with
          mixer := { s.mixer with owedStart := false }
          ctrl := { s.ctrl with mode := mode, q := 0, len := 32 * m, aligned := aligned, sat := 0, scheduled := none,
                                degraded := false, holdoff := 0 }
          align := { s.align with transition := if m = 0 then s.align.transition else true }
          events := s.recording (.switchStart s.ctrl.mode.onAir y cause aligned m position
            :: if m = 0 then [.switchEnd y 0] else []) }
      else if s.ctrl.mode = .idle ∧ s.ready y.other = true then
        { s with mixer := { s.mixer with owedStart := false },
                 ctrl := { s.ctrl with scheduled := some ⟨.opening, y.other, .opening⟩ } }
      else if s.ctrl.mode = .on y.other ∧ s.ready y.other = false ∧ s.ctrl.degraded = false then
        { s with mixer := { s.mixer with owedStart := false }, ctrl := { s.ctrl with scheduled := none, degraded := true },
                 events := s.recording [.degraded (some y.other)] }
      else { s with mixer := { s.mixer with owedStart := false }, ctrl := { s.ctrl with scheduled := none } }))
    ∧ ∀ t, exec .transitionStart s = .next t → exec .programSample { t with lines := s.lines } = exec .programSample s

/-- R68, R69: a scheduled REVERSAL in FADE_XY turns the fade at the span start: FADE_YX, the fade position mirrored, SWITCH_REVERSED, the
rest of the switch record standing. With X not ready it is withdrawn, and an incoming port that is not ready leaves DEGRADED set. The
sample made then is the one that PROGRAM_SAMPLE alone makes, the answer included (R92); the command acts ahead of it (log 3). -/
def Obligations.ReversalTurnsTheFade : Prop :=
  ∀ (s : State) (x : Port) (cause : SwitchCause), s.AtSpanStart → s.mixer.owedStart = true →
    s.ctrl.scheduled = some ⟨.reversal, x, cause⟩ → s.ctrl.mode = .fade x →
    exec .reversal s = .next (State.settleLines (
      if s.ready x = true then
        { s with mixer := { s.mixer with owedStart := false },
                 ctrl := { s.ctrl with mode := .fade x.other, q := s.ctrl.len - s.ctrl.q, scheduled := none },
                 events := s.recording [.switchReversed x (s.ctrl.len - s.ctrl.q)] }
      else if s.ready x.other = false ∧ s.ctrl.degraded = false then
        { s with mixer := { s.mixer with owedStart := false }, ctrl := { s.ctrl with scheduled := none, degraded := true },
                 events := s.recording [.degraded (some x)] }
      else { s with mixer := { s.mixer with owedStart := false }, ctrl := { s.ctrl with scheduled := none } }))
    ∧ ∀ t, exec .reversal s = .next t → exec .programSample { t with lines := s.lines } = exec .programSample s

/-- R71 with R58, R59: a pending switch record fires at its trigger, a NOW record at the span start it is owed, a mark record at a mark
that the on-air port's ring gives the next sample, the first of a span or a later one: with its target ready it begins the transition or
makes the cut, as a FADE start does; else it is removed with PENDING_CANCELLED. The sample made then is the one that PROGRAM_SAMPLE alone
makes, the answer included (R92). Choices of the model: the command acts ahead of its sample, where the mark stays to be seen by table
memory (log 3), the controller answers a span start or a mark before table memory, which R109 leaves in either order (log 13), and the
position in SWITCH_START (R54, R55) is read in the state just after the transition is set (log 14). -/
def Obligations.PendingSwitchFiresAtItsTrigger : Prop :=
  ∀ (s : State) (r : PendingSwitch) (song : Byte), s.run = .running → s.clock.begun = true → s.SwitchArmed →
    s.ctrl.pendingSwitch = some r → s.mixer.earlyMark = none →
    (s.clock.made = 0 ∧ r.trigger = .now ∧ s.mixer.owedSwitch = true
      ∨ s.clock.made < 32 ∧ (s.clock.made = 0 → s.mixer.owedApply = false) ∧ s.markRead r.target.other = some song
        ∧ (r.trigger = .atMark ∨ r.trigger = .atSong song)) →
    let m := s.tables.live.fadeSpans r.cause
    let mode : Mode := if m = 0 then .on r.target else .fade r.target.other
    let aligned := decide (alignmentState s.align = .aligned)
    let position := State.outputPosition { s with ctrl := { s.ctrl with mode := mode } }
    let answered : Mixer := if s.clock.made = 0 then { s.mixer with owedStart := false, owedSwitch := false } else s.mixer
    let s1 : State := { s with mixer :=
      if r.trigger = .now then answered else { answered with earlyMark := some ⟨r.target.other, song⟩ } }
    exec .pendingSwitchFire s = .next (State.settleLines (
      if s.ready r.target = true then
        { s1 with
          ctrl := { s.ctrl with mode := mode, q := 0, len := 32 * m, aligned := aligned, sat := 0, pendingSwitch := none,
                                degraded := false, holdoff := 0 }
          align := { s.align with transition := if m = 0 then s.align.transition else true }
          events := s.recording (.switchStart (some r.target.other) r.target r.cause aligned m position
            :: if m = 0 then [.switchEnd r.target 0] else []) }
      else { s1 with ctrl := { s.ctrl with pendingSwitch := none },
                     events := s.recording [.pendingCancelled r.target r.cause] }))
    ∧ ∀ t, exec .pendingSwitchFire s = .next t → exec .programSample { t with lines := s.lines } = exec .programSample s

/-- R61 with R48, R65, R105, R106: the sample that takes the fade position to the fade length ends the transition, the last sample of a
span, the ordinary case (R60), or any other at which nothing is answered. The target is on air; then SWITCH_END, the end notice with a
deferred skew's off-air update, a deferred adoption, the hold-off count, a reversal left over made a fade, and the new on-air port's
verdict, with a failover scheduled or DEGRADED set when it is not ready. The adoption's record comes after the controller's (R106).
Choices of the model: FADE_END as a command makes that sample (log 27), the adoption is validated and stamped here and not at the sample
after (log 37), OUT_OF_RANGE has the place of the end notice among these records (log 35), and the last sample of a span, after which the
engine looks (log 7), is asked for with no request waiting. -/
def Obligations.FadeEndFollowsItsSteps : Prop :=
  ∀ (s : State) (y : Port), s.Unanswered → (s.clock.made = 31 → s.NoRequests) → s.ctrl.mode.target = some y →
    s.ctrl.q + 1 = s.ctrl.len →
    let sat := s.satAt s.ctrl.len
    let left : Option ScheduledStart := match s.ctrl.scheduled with
      | some ⟨.reversal, t, cause⟩ => some ⟨.fade, t, cause⟩
      | other => other
    let failover := s.ready y = false ∧ left = none ∧ s.ctrl.auto = true ∧ s.ready y.other = true
    let degrades := s.ready y = false ∧ left = none ∧ ¬failover
    let deferred := s.applyDeferred = true
    let skew := if s.align.deferred then s.align.accepted else none
    let raw : Int → Int := fun k => (s.align.delays.get y : Int) - (if y = .a then k else -k)
    exec .fadeEnd s = exec .programSample s
    ∧ ∃ t, exec .programSample s = .next t ∧ (s.clock.made ≠ 0 → t.align.position = s.align.position)
      ∧ t = State.settleLines (s.withRow
      { s with
        mixer := { s.mixer with owedStart := if failover then false else s.mixer.owedStart }
        ctrl := { s.ctrl with
          mode := .on y, q := 0, len := 0, sat := sat, holdoff := 0,
          scheduled := if failover then some ⟨.fade, y.other, .failure⟩ else left,
          pendingSwitch := if failover then none else s.ctrl.pendingSwitch,
          degraded := if s.ready y = true then false else if degrades then true else s.ctrl.degraded }
        align := { s.align with
          transition := false, deferred := false,
          delays := match skew with
            | none => s.align.delays
            | some k => s.align.delays.set y.other (max 64 (min 2016 (raw k))).toNat,
          clamp := match skew with
            | none => s.align.clamp
            | some k => decide (raw k < 64 ∨ 2016 < raw k)
          position := t.align.position }
        tables := if deferred then { s.tables with
          apply := none, live := if validate s.tables = none then s.tables.staged else s.tables.live } else s.tables
        events := s.recording ([.switchEnd y sat]
          ++ (match skew with
            | none => []
            | some k => if raw k < 64 ∨ 2016 < raw k then [.outOfRange (max (-(2 ^ 31)) (min (2 ^ 31 - 1) k))] else [])
          ++ (if failover then (match s.ctrl.pendingSwitch with
              | some r => [.pendingCancelled r.target r.cause]
              | none => [])
            else if degrades ∧ s.ctrl.degraded = false then [.degraded (some y)] else [])
          ++ (if deferred then
            match validate s.tables with
            | none => [.applyDone (s.tables.staged.route != s.tables.live.route) (s.tables.staged.curve != s.tables.live.curve)
                (s.tables.staged.profile != s.tables.live.profile)]
            | some reason => [.applyRefused reason]
            else [])) }
      (s.mixedAt s.ctrl.len) t.align.position)

/-- R102, R104, R106: a pending apply record whose trigger is met, NOW at the span start or AT_MARK or AT_SONG at a mark that the next
sample reports: in a transition it is deferred; in IDLE and the ON states the staged copy is validated again and, whole, becomes the
live copy with APPLY_DONE, or the record ends with APPLY_REFUSED and its reason. That record comes after any the controller makes at
the sample (R106), so with table memory first (R109) ADOPTION takes TRANSITION_START and PENDING_SWITCH_FIRE, with the new tables,
before its record. Unless a start or a NOW record is owed, or a mark that finds a switch record pending, the sample made then is the one
that PROGRAM_SAMPLE alone makes, the answer included (R92). Choices of the model: the command acts ahead of its sample (log 3), and
table memory answers before the controller when it is ADOPTION that is commanded (logs 13 and 35). -/
def Obligations.AdoptionTakesAllTablesOrNone : Prop :=
  let adopted : State → State := fun s => { s with tables := { s.tables with
    live := if validate s.tables = none then s.tables.staged else s.tables.live, apply := none } }
  let record : State → EventBody := fun s =>
    match validate s.tables with
    | none => .applyDone (decide (s.tables.staged.route ≠ s.tables.live.route)) (decide (s.tables.staged.curve ≠ s.tables.live.curve))
        (decide (s.tables.staged.profile ≠ s.tables.live.profile))
    | some reason => .applyRefused reason
  let deferred : State → Trigger → State := fun s trigger => { s with tables := { s.tables with apply := some ⟨trigger, .deferred⟩ } }
  (∀ s : State, s.AtSpanStart → s.mixer.owedApply = true → s.tables.apply = some ⟨.now, .waiting⟩ →
    let s' : State := { s with mixer := { s.mixer with owedApply := false } }
    (s.ctrl.mode.isTransition = true → exec .adoption s = .next (State.settleLines (deferred s' .now)))
    ∧ (s.ctrl.mode.isTransition = false → ∃ u v,
      exec .transitionStart (adopted s') = .next u ∧ exec .pendingSwitchFire u = .next v
      ∧ exec .adoption s = .next (State.settleLines { v with events := v.recording [record s] })
      ∧ (s.mixer.owedStart = false → s.mixer.owedSwitch = false → (s.sampleMark ≠ none → s.ctrl.pendingSwitch = none) →
        v = State.settleLines (adopted s')))
    ∧ (s.mixer.owedStart = false → s.mixer.owedSwitch = false →
      ∀ t, exec .adoption s = .next t → exec .programSample { t with lines := s.lines } = exec .programSample s))
  ∧ ∀ (s : State) (x : Port) (trigger : Trigger) (song : Byte), s.run = .running → s.clock.begun = true → s.clock.made < 32 →
    (s.clock.made = 0 → s.mixer.owedStart = false ∧ s.mixer.owedSwitch = false ∧ s.mixer.owedApply = false) →
    s.mixer.earlyMark = none → (s.ctrl.mode = .on x ∨ s.ctrl.mode = .opening x ∨ s.ctrl.mode = .fade x) →
    s.markRead x = some song → s.tables.apply = some ⟨trigger, .waiting⟩ → (trigger = .atMark ∨ trigger = .atSong song) →
    let kept : State → State := fun s => { s with mixer := { s.mixer with earlyMark := some ⟨x, song⟩ } }
    (s.ctrl.mode.isTransition = true → exec .adoption s = .next (State.settleLines (deferred (kept s) trigger)))
    ∧ (s.ctrl.mode.isTransition = false → ∃ v, exec .pendingSwitchFire (adopted s) = .next v
      ∧ exec .adoption s = .next (State.settleLines { kept v with events := v.recording [record s] })
      ∧ (s.ctrl.pendingSwitch = none → v = State.settleLines (adopted s)))
    ∧ (s.ctrl.pendingSwitch = none →
      ∀ t, exec .adoption s = .next t → exec .programSample { t with lines := s.lines } = exec .programSample s)

/-- R116, R119: a LATCHED lock that is engaged stands, and no live ROUTE entry of its set, no live curve point and no live PROFILE field
changes, whatever command comes, until the part starts up or loses power. -/
def Obligations.LatchedLockHoldsTheLiveTables : Prop :=
  ∀ (c : Instr) (s t : State), s.tables.lock.mode = .latched → lockEngaged s.tables.lock = true →
    (∀ kind rate, c ≠ .startUp kind rate) → c ≠ .powerLoss → exec c s = .next t →
    t.tables.lock = s.tables.lock ∧ t.tables.live.curve = s.tables.live.curve ∧ t.tables.live.profile = s.tables.live.profile
      ∧ ∀ k < 64, channelLocked s.tables.lock k = true → t.tables.live.route[k]? = s.tables.live.route[k]?

/-! ## Receive windows, health, alignment and the panel -/

/-- R6 to R10, R16, R123: the receiver state, the sync count and the absent run after a window, by the tables of the four states. A window
that leaves LOCKED, or a check failure in LOCKED, breaks the lane stream: the deframer passes to HUNT with nothing held and its
continuity absent, and a message in progress is a BROKEN error. Where no lane byte comes, the records of the change come first:
PORT_STATE, then the BROKEN error of a port that leaves LOCKED. That they precede the records of the other blocks in that window, which
R145 places in either order, is the model's choice (log 13). -/
def Obligations.ReceiverFollowsItsTables : Prop :=
  ∀ (s : State) (p : Port), s.WindowDue p →
    let x := s.ports.get p
    let kind : Option SpanKind := match s.outcome p with
      | .valid f => some f.kind
      | _ => none
    let run := if s.outcome p = .absent then min 255 (x.absentRun + 1) else 0
    let lost := s.outcome p = .absent ∧ s.tables.live.nDown ≤ run
    ∃ t, exec (.windowClose p) s = .next t ∧ (t.ports.get p).absentRun = run
      ∧ ((t.ports.get p).rx, (t.ports.get p).sync) = (
        if kind = some .sync then (.training, if x.rx = .training then min 255 (x.sync + 1) else 1)
        else match x.rx with
          | .down => (.down, x.sync)
          | .training =>
            if s.outcome p = .absent then (.down, 0)
            else if (kind = some .data ∨ kind = some .idle) ∧ s.tables.live.lSync ≤ x.sync then (.locked, 0)
            else (.training, 0)
          | .locked => if lost then (.down, x.sync) else if kind = some .standby then (.standby, x.sync) else (.locked, x.sync)
          | .standby => if lost then (.down, x.sync) else (.standby, x.sync))
      ∧ (let y := t.ports.get p
        let leaves := x.rx = .locked ∧ y.rx ≠ .locked
        let broken := min 4294967295 (x.counters.broken + 1)
        (leaves ∨ (x.rx = .locked ∧ s.raises p .check = true) →
          y.deframer = ⟨.hunt, [], false, 0, none⟩
          ∧ y.counters.broken = (if x.deframer.busy = true then broken else x.counters.broken))
        ∧ (s.LaneQuiet p → (s.recording ((if x.rx = y.rx then [] else [.portState p x.rx y.rx])
          ++ (if leaves ∧ x.deframer.busy = true then [.mgmtError p .broken (min 16777215 broken)] else []))).records
            <+: t.events.records))

/-- R11, R12: the expected span number, the last-valid-span record and the sequence-fault counter after a window. A span taken in a
LOCKED window that does not carry the number after the expected one is out of sequence once, and the expected number follows it. The
counter is read where the window brings no request that could clear it. -/
def Obligations.WindowTracksSpanNumbers : Prop :=
  ∀ (s : State) (p : Port), s.WindowDue p →
    let x := s.ports.get p
    let used := if (s.taken p .data).isSome then s.taken p .data else s.taken p .idle
    ∃ t, exec (.windowClose p) s = .next t ∧
      let y := t.ports.get p
      (x.rx = .locked → y.rx = .locked → y.expected = (match used with
        | some f => f.number
        | none => x.expected + 1))
      ∧ (x.rx = .locked → y.rx ≠ .locked → y.expected = x.expected + 1)
      ∧ (x.rx ≠ .locked → y.rx = .locked → ∃ f, used = some f ∧ y.expected = f.number)
      ∧ (s.LaneQuiet p → y.counters.sequenceFaults =
          if x.rx = .locked ∧ y.rx = .locked ∧ ∃ f ∈ used, f.number ≠ x.expected + 1 then
            min 4294967295 (x.counters.sequenceFaults + 1)
          else x.counters.sequenceFaults)
      ∧ (y.rx = .locked → y.lastValid = (match s.taken p .data with
        | some f => some ⟨s.clock.window, f.position, f.run, f.song⟩
        | none => if x.rx = .locked then x.lastValid else none))
      ∧ (y.rx ≠ .locked → y.lastValid = x.lastValid)

/-- R13, R14: a window writes exactly one slot of the ring, slot w modulo 64: VALID with a DATA span of a LOCKED port, PREDICTED with the
audio of a check failure and metadata that plays on from the last valid span, and EMPTY in every other case. -/
def Obligations.WindowWritesOneSlot : Prop :=
  ∀ (s : State) (p : Port), s.WindowDue p →
    let x := s.ports.get p
    ∃ t, exec (.windowClose p) s = .next t ∧ (t.ports.get p).ring = x.ring.set (s.clock.window.toNat % 64) (
      if (t.ports.get p).rx = .locked then
        match s.outcome p with
        | .valid f =>
          if f.kind = .data then
            .valid ⟨f.number, f.position, f.run, f.mark, if f.mark then f.markOffset else 0, f.song⟩ f.audio
          else .empty
        | .check audio => .predicted (match x.lastValid with
          | some r => ⟨x.expected + 1, r.position + BitVec.ofNat 40 (32 * (s.clock.window - r.window).toNat), r.run, false, 0, r.song⟩
          | none => ⟨x.expected + 1, 0, false, false, 0, 0⟩) audio
        | .absent => .empty
      else .empty)

/-- R5, R19: what a window of port p without lane bytes leaves alone: the other port and its health record, the program port, the store,
both queues of requests, the staged tables, the lock, the span being made; and how it counts. -/
def Obligations.WindowLeavesTheOtherPortAlone : Prop :=
  ∀ (s : State) (p : Port), s.WindowDue p → s.LaneQuiet p →
    let x := s.ports.get p
    ∃ t, exec (.windowClose p) s = .next t ∧
      let y := t.ports.get p
      t.ports.get p.other = s.ports.get p.other ∧ t.health.get p.other = s.health.get p.other ∧ t.prog = s.prog ∧ t.store = s.store
      ∧ t.run = s.run ∧ t.rate = s.rate ∧ t.pins = s.pins ∧ t.pointer = s.pointer ∧ t.tables.staged = s.tables.staged
      ∧ t.tables.lock = s.tables.lock ∧ t.sentReturn = s.sentReturn ∧ t.sentProgram = s.sentProgram
      ∧ t.mixer.rows = s.mixer.rows ∧ t.mixer.firstMark = s.mixer.firstMark ∧ t.mixer.delays = s.mixer.delays
      ∧ t.ctrl.debounce = s.ctrl.debounce ∧ t.ctrl.auto = s.ctrl.auto
      ∧ t.clock = { s.clock with closed := s.clock.closed.set p true }
      ∧ y.store = x.store.drop 1 ∧ y.requests = x.requests ∧ y.replies = x.replies ∧ y.wait = x.wait
      ∧ y.counters.taken = (if x.store = [] then x.counters.taken else min 4294967295 (x.counters.taken + 1))
      ∧ y.counters.absentWindows = (if x.store = [] then min 4294967295 (x.counters.absentWindows + 1) else x.counters.absentWindows)
      ∧ y.counters.checkFailures = (if s.raises p .check = true then min 4294967295 (x.counters.checkFailures + 1)
          else x.counters.checkFailures)
      ∧ y.counters.overruns = x.counters.overruns

/-- R21, R22, R29 to R33: the health record after a LOCKED window: its entries, its score by the weights of the faults the window raises,
its verdict and clean count by the tables, and, when the verdict changes, the heaviest fault as its cause, the earlier one on a tie. A
window that makes the lock is judged from the record of a lock entry. -/
def Obligations.LockedWindowIsJudged : Prop :=
  ∀ (s : State) (p : Port), s.WindowDue p →
    ∃ t, exec (.windowClose p) s = .next t ∧ ((t.ports.get p).rx = .locked →
      let h := s.judged p
      let g := t.health.get p
      let sum := s.weightSum p
      let l := s.tables.live
      g.lockView = h.lockView
      ∧ g.lastData = (match s.taken p .data with
        | some f => some ⟨s.clock.window, f.position, f.run, f.heartbeat⟩
        | none => h.lastData)
      ∧ g.lastRunning = (match s.taken p .data with
        | some f => if f.run then some f.position else h.lastRunning
        | none => h.lastRunning)
      ∧ g.score = (if 0 < sum then min 255 (h.score + sum) else h.score - l.decay)
      ∧ (g.verdict, g.clean) = (match h.verdict with
        | .good | .suspect =>
          (if l.tFail ≤ g.score then .failed else if l.tWarn ≤ g.score then .suspect else .good, h.clean)
        | .failed => if g.score ≤ l.tOk then (.recovering, 0) else (.failed, h.clean)
        | .recovering =>
          if 0 < sum then (.failed, h.clean)
          else (if l.qOk ≤ min 255 (h.clean + 1) then .good else .recovering, min 255 (h.clean + 1)))
      ∧ (g.verdict = h.verdict → g.cause = h.cause)
      ∧ (g.verdict ≠ h.verdict → sum = 0 → g.cause = .noCause)
      ∧ (g.verdict ≠ h.verdict → 0 < sum → ∃ (i : Nat) (k : FaultKind), faultOrder[i]? = some k ∧ s.raises p k = true ∧ 0 < l.weight k
          ∧ g.cause = .fault k ∧ ∀ (j : Nat) (k' : FaultKind), faultOrder[j]? = some k' → s.raises p k' = true →
            l.weight k' ≤ l.weight k ∧ (j < i → l.weight k' < l.weight k)))

/-- R9, R10, R34: the window in which a LOCKED port loses its lock forces its health record to FAILED without judging it; when it is the
absent window that completes a run of N_DOWN, from LOCKED or STANDBY, the command of that name is that window close, and in every other
window it leaves the state (log 3). -/
def Obligations.LosingLockForcesFailure : Prop :=
  ∀ (s : State) (p : Port), s.WindowDue p →
    let x := s.ports.get p
    let lost := s.outcome p = .absent ∧ s.tables.live.nDown ≤ min 255 (x.absentRun + 1)
    let left := lost ∨ (s.taken p .sync).isSome ∨ (s.taken p .standby).isSome
    (x.rx = .locked → (s.health.get p).lockView = true → left → ∃ t, exec (.windowClose p) s = .next t
      ∧ t.health.get p = { s.health.get p with
          score := 255, verdict := .failed, cause := if (s.taken p .standby).isSome then .standby else .notLocked,
          lockView := false, lastData := none, lastRunning := none })
    ∧ (lost → (x.rx = .locked ∨ x.rx = .standby) → exec (.absentRunReachesNDown p) s = exec (.windowClose p) s
      ∧ ∃ t, exec (.absentRunReachesNDown p) s = .next t ∧ (t.ports.get p).rx = .down)
    ∧ (¬lost ∨ (x.rx ≠ .locked ∧ x.rx ≠ .standby) → exec (.absentRunReachesNDown p) s = .next s.settleLines)

/-- R33: a RECOVERING port of a LOCKED receiver becomes GOOD in the window with no weighted fault whose clean count is the live Q_OK, and
the command of that name is that window close; with a count still short, or from another verdict, it leaves the state (log 3). R62: in
IDLE the port that becomes ready is chosen for an opening, or the preferred port instead of one already scheduled, if it is ready. R35,
R65 to R67, with the table of 4.11: any window without lane bytes that makes a LOCKED port GOOD or SUSPECT records VERDICT, and then, by
the controller state: in IDLE the opening choice as above for a port that becomes ready; the port on air in ON_X clears DEGRADED, and so
does the incoming port of a fade at GOOD; the other port of a degraded ON_X at GOOD, with AUTO set and no start scheduled, is given a FADE
start with cause FAILURE, the pending switch record cancelled; every other such change leaves the state, the start and DEGRADED. These
records come before the alignment unit's of that window, an order that R145 leaves open and the model chooses (log 13). -/
def Obligations.CleanWindowsEarnGood : Prop :=
  (∀ (s : State) (p : Port), s.WindowDue p → (s.ports.get p).rx = .locked →
    ((s.health.get p).verdict = .recovering → s.weightSum p = 0 → (s.taken p .data).isSome ∨ (s.taken p .idle).isSome →
      s.tables.live.qOk ≤ min 255 ((s.health.get p).clean + 1) →
      exec (.cleanCountReachesQOk p) s = exec (.windowClose p) s
      ∧ ∃ t, exec (.cleanCountReachesQOk p) s = .next t ∧ (t.health.get p).verdict = .good
        ∧ (t.health.get p).clean = min 255 ((s.health.get p).clean + 1) ∧ (t.health.get p).score = (s.health.get p).score - s.tables.live.decay
        ∧ (s.ctrl.mode = .idle → s.LaneQuiet p → t.ctrl.mode = .idle ∧ t.ctrl.scheduled = some (
          match s.ctrl.scheduled with
          | none => ⟨.opening, p, .opening⟩
          | some st => if st.action = .opening ∧ st.target = p.other ∧ (s.preferred = p ∨ s.ready s.preferred = true) then
              { st with target := s.preferred } else st)))
    ∧ ((s.health.get p).verdict ≠ .recovering ∨ min 255 ((s.health.get p).clean + 1) < s.tables.live.qOk →
      exec (.cleanCountReachesQOk p) s = .next s.settleLines))
  ∧ ∀ (s : State) (p : Port), s.WindowDue p → s.LaneQuiet p → (s.ports.get p).rx = .locked →
    let start := s.ctrl.scheduled
    ∃ t, exec (.windowClose p) s = .next t ∧
      let new := (t.health.get p).verdict
      (new ≠ (s.health.get p).verdict → (new = .good ∨ new = .suspect) →
        let after := (t.ctrl.mode, t.ctrl.scheduled, t.ctrl.degraded)
        let records : List EventBody → Prop := fun own =>
          (s.recording (.verdict p new (t.health.get p).cause (t.health.get p).score :: own)).records <+: t.events.records
        let resolves := new = .good ∧ s.ctrl.degraded = true ∧ s.ctrl.auto = true ∧ start = none
        (s.ctrl.mode = .idle → after = (.idle,
            (if (s.health.get p).verdict = .good ∨ (s.health.get p).verdict = .suspect then start
            else match start with
            | none => some ⟨.opening, p, .opening⟩
            | some st => if st.action = .opening ∧ st.target = p.other ∧ (s.preferred = p ∨ s.ready s.preferred = true) then
                some { st with target := s.preferred } else start), s.ctrl.degraded) ∧ records [])
        ∧ (s.ctrl.mode = .opening p ∨ s.ctrl.mode = .opening p.other → after = (s.ctrl.mode, start, s.ctrl.degraded) ∧ records [])
        ∧ (s.ctrl.mode = .on p → after = (s.ctrl.mode, start, false) ∧ records [])
        ∧ (s.ctrl.mode = .on p.other → resolves → after = (s.ctrl.mode, some ⟨.fade, p, .failure⟩, true) ∧ t.ctrl.pendingSwitch = none
          ∧ records (match s.ctrl.pendingSwitch with
            | some r => [.pendingCancelled r.target r.cause]
            | none => []))
        ∧ (s.ctrl.mode = .on p.other → ¬resolves → after = (s.ctrl.mode, start, s.ctrl.degraded) ∧ records [])
        ∧ (s.ctrl.mode = .fade p.other → after = (s.ctrl.mode, start, if new = .good then false else s.ctrl.degraded) ∧ records [])
        ∧ (s.ctrl.mode = .fade p → after = (s.ctrl.mode, start, s.ctrl.degraded) ∧ records []))

/-- R35, R62 to R67, R69, R75: the port that a window takes to FAILED, and what the controller does by its state. First the port on air,
ready, that an absent window takes to FAILED: VERDICT is recorded, then a failover toward a ready other port is scheduled when AUTO is
set, with the pending switch record cancelled; else DEGRADED is set and recorded. Then any window without lane bytes that does so, by
whatever faults or by the loss of the lock: on air the same; in IDLE a start toward the port is withdrawn; an opening toward it is
abandoned with SWITCH_ABANDONED; the incoming port of a fade brings a REVERSAL, or DEGRADED; the outgoing port, or a fade's target,
withdraws a start scheduled toward it. A scheduled REVERSAL stands, and that it does so also with AUTO clear or its target not ready is
the model's reading of R67 (log 18). An adoption that waited for the end of an abandoned opening is made at once (log 37). PORT_STATE and
BROKEN before VERDICT, and DEGRADED before what R75 removes, are its choices of an order (log 13). -/
def Obligations.OnAirFailureSchedulesFailover : Prop :=
  (∀ (s : State) (x : Port), s.WindowDue x → s.ctrl.mode = .on x → s.ready x = true → (s.ports.get x).rx = .locked →
    s.outcome x = .absent → min 255 ((s.ports.get x).absentRun + 1) < s.tables.live.nDown → 0 < s.tables.live.weight .absent →
    s.tables.live.tFail ≤ min 255 ((s.health.get x).score + s.tables.live.weight .absent) → s.ctrl.scheduled = none → s.SwitchArmed →
    let score := min 255 ((s.health.get x).score + s.tables.live.weight .absent)
    let switches := s.ctrl.auto = true ∧ s.ready x.other = true
    let revert := s.preferred = x ∧ ∃ r ∈ s.ctrl.pendingSwitch, r.cause = .revert
    let cancelled : List EventBody := match s.ctrl.pendingSwitch with
      | some r => [.pendingCancelled r.target r.cause]
      | none => []
    ∃ t, exec (.windowClose x) s = .next t
      ∧ t.ctrl = { s.ctrl with
          scheduled := if switches then some ⟨.fade, x.other, .failure⟩ else none
          pendingSwitch := if switches ∨ revert then none else s.ctrl.pendingSwitch
          degraded := if switches then s.ctrl.degraded else true
          holdoff := if s.preferred = x then 0 else s.ctrl.holdoff }
      ∧ (s.recording (.verdict x .failed (.fault .absent) score
          :: if switches then cancelled else if s.ctrl.degraded then [] else [.degraded (some x)])).records <+: t.events.records)
  ∧ ∀ (s : State) (p : Port), s.WindowDue p → s.LaneQuiet p →
    let start := s.ctrl.scheduled
    let toward : StartAction → Prop := fun act => ∃ cause, start = some ⟨act, p, cause⟩
    ∃ t, exec (.windowClose p) s = .next t ∧
      ((s.ports.get p).rx = .locked → (s.health.get p).verdict ≠ .failed → (t.health.get p).verdict = .failed →
        let x := s.ports.get p
        let y := t.ports.get p
        let verdict : EventBody := .verdict p .failed (t.health.get p).cause (t.health.get p).score
        let front : List EventBody := (if x.rx = y.rx then [] else [.portState p x.rx y.rx])
          ++ (if x.rx = .locked ∧ y.rx ≠ .locked ∧ x.deframer.busy = true then
            [.mgmtError p .broken (min 16777215 (min 4294967295 (x.counters.broken + 1)))] else [])
        let after := (t.ctrl.mode, t.ctrl.scheduled, t.ctrl.degraded)
        let records : List EventBody → Prop := fun own => (s.recording (front ++ verdict :: own)).records <+: t.events.records
        let degraded : List EventBody := if s.ctrl.degraded then [] else [.degraded s.ctrl.mode.onAir]
        (s.ctrl.mode = .idle → toward .opening →
          after = (.idle, if s.ready p.other then some ⟨.opening, p.other, .opening⟩ else none, s.ctrl.degraded) ∧ records [])
        ∧ (s.ctrl.mode = .idle → ¬ toward .opening → after = (.idle, start, s.ctrl.degraded) ∧ records [])
        ∧ (s.ctrl.mode = .opening p → start = none →
          after = (.idle, if s.ready p.other then some ⟨.opening, p.other, .opening⟩ else none, s.ctrl.degraded)
          ∧ t.ctrl.q = 0 ∧ t.ctrl.len = 0 ∧ t.align.transition = false ∧ t.align.deferred = false
          ∧ (s.applyDeferred = true → t.tables.apply = none) ∧ records [.switchAbandoned p])
        ∧ (s.ctrl.mode = .opening p.other → after = (s.ctrl.mode, start, s.ctrl.degraded) ∧ records [])
        ∧ (s.ctrl.mode = .on p → start = none →
          if s.ctrl.auto = true ∧ s.ready p.other = true then
            after = (s.ctrl.mode, some ⟨.fade, p.other, .failure⟩, s.ctrl.degraded) ∧ t.ctrl.pendingSwitch = none
            ∧ records (match s.ctrl.pendingSwitch with
              | some r => [.pendingCancelled r.target r.cause]
              | none => [])
          else after = (s.ctrl.mode, none, true) ∧ records degraded)
        ∧ (s.ctrl.mode = .on p.other → toward .fade →
          after = (s.ctrl.mode, none, s.ctrl.degraded || !s.ready p.other)
          ∧ records (if s.ready p.other then [] else degraded))
        ∧ (s.ctrl.mode = .on p.other → ¬ toward .fade → after = (s.ctrl.mode, start, s.ctrl.degraded) ∧ records [])
        ∧ (s.ctrl.mode = .fade p.other →
          if start ≠ none then after = (s.ctrl.mode, start, s.ctrl.degraded) ∧ records []
          else if s.ctrl.auto = true ∧ s.ready p.other = true then
            after = (s.ctrl.mode, some ⟨.reversal, p.other, .failure⟩, s.ctrl.degraded) ∧ records []
          else after = (s.ctrl.mode, none, true) ∧ records degraded)
        ∧ (s.ctrl.mode = .fade p → toward .reversal →
          after = (s.ctrl.mode, none, s.ctrl.degraded || !s.ready p.other)
          ∧ records (if s.ready p.other then [] else degraded))
        ∧ (s.ctrl.mode = .fade p → ¬ toward .reversal → after = (s.ctrl.mode, start, s.ctrl.degraded) ∧ records []))

/-- R75, R76: with the revert conditions, a GOOD window of the preferred port adds to the hold-off count; at HOLDOFF, with no pending
switch record, the revert record is created, and the command of that name is that window close; below it the command leaves the state
(log 3). A LOCKED window of the preferred port that finds a condition missing, or a verdict of it that leaves GOOD, sets the count to 0
and removes a revert record. -/
def Obligations.RevertWaitsForHoldoff : Prop :=
  (∀ (s : State) (f : ForwardSpan), s.WindowDue s.preferred → s.ctrl.mode = .on s.preferred.other →
    s.tables.live.revertAtMark = true → s.ctrl.scheduled = none → s.ctrl.pendingSwitch = none →
    (s.ports.get s.preferred).rx = .locked → (s.health.get s.preferred).verdict = .good →
    s.outcome s.preferred = .valid f → (f.kind = .data ∨ f.kind = .idle) → f.lane = [] → s.weightSum s.preferred = 0 →
    (s.health.get s.preferred).score - s.tables.live.decay < s.tables.live.tWarn →
    (s.health.get s.preferred).score - s.tables.live.decay < s.tables.live.tFail →
    let count := min 65535 (s.ctrl.holdoff + 1)
    let due := s.tables.live.holdoff ≤ count
    (∃ t, exec (.windowClose s.preferred) s = .next t ∧ t.ctrl = { s.ctrl with
      holdoff := count, pendingSwitch := if due then some ⟨s.preferred, .atMark, .revert⟩ else none })
    ∧ (due → exec .revert s = exec (.windowClose s.preferred) s)
    ∧ (¬due → exec .revert s = .next s.settleLines))
  ∧ ∀ s : State, s.WindowDue s.preferred → s.LaneQuiet s.preferred → s.applyDeferred = false →
    let old := (s.health.get s.preferred).verdict
    ∃ t, exec (.windowClose s.preferred) s = .next t ∧
      let new := (t.health.get s.preferred).verdict
      ((t.ports.get s.preferred).rx = .locked ∧ (s.ctrl.mode ≠ .on s.preferred.other ∨ s.tables.live.revertAtMark = false
          ∨ s.ctrl.scheduled ≠ none ∨ new ≠ .good)
        ∨ old = .good ∧ new ≠ .good →
        t.ctrl.holdoff = 0 ∧ ∀ r ∈ t.ctrl.pendingSwitch, r.cause ≠ .revert)

/-- R39 to R47: a window completes the pair of leads, and its skew, confirmed K_SKEW times, is accepted: a recentre in IDLE, an off-air
update in ON_X, deferral in a transition, with SKEW recorded. The window is one that the health monitor finds nothing in and that does
not fail the port, so that the controller state stands; the event queue has room for what the window may record. That SKEW_ACCEPTANCE
as a command is this window close is the model's choice (log 3). Then any window of a port, whatever it takes: the first report of a pair
holds its lead, or that it has none, and leaves the candidate and its count; the second clears both leads, and, with two leads, raises
the count of an equal candidate, to at most 255, or restarts it at 1 with the skew measured. Nothing is accepted while the count is below
K_SKEW or the candidate is the accepted skew; else the candidate is (with no adoption waiting that the window could release first). -/
def Obligations.ConfirmedSkewIsAccepted : Prop :=
  (∀ (s : State) (p : Port) (f : ForwardSpan) (other : Int), s.WindowDue p → (s.ports.get p).rx = .locked →
    s.outcome p = .valid f → f.kind = .data → f.run = true → f.lane = [] → s.weightSum p = 0 →
    ((s.health.get p).verdict.ready = true → (s.health.get p).score - s.tables.live.decay < s.tables.live.tFail) →
    s.align.leads.get p.other = .reported (some other) → fillOf s.events.records + 64 ≤ 1024 →
    let lead := signed40 (f.position - BitVec.ofNat 40 (32 * s.clock.window.toNat))
    let k := signed40 (BitVec.ofInt 40 (if p = .a then lead - other else other - lead))
    s.align.candidate = some k → s.align.accepted ≠ some k → s.tables.live.kSkew ≤ min 255 (s.align.confirm + 1) →
    let g : Int := s.tables.live.guardDelay
    let on := match s.ctrl.mode with
      | .on x => x
      | .fade x => x
      | _ => s.preferred
    let kOn := if on = .a then k else -k
    let limit : Int → Nat := fun d => (max 64 (min 2016 d)).toNat
    let dOn := if s.ctrl.mode = .idle then limit (g + max 0 kOn) else s.align.delays.get on
    let dOff := if s.ctrl.mode.isTransition then s.align.delays.get on.other else limit (dOn - kOn)
    exec (.skewAcceptance p) s = exec (.windowClose p) s
    ∧ ∃ t, exec (.skewAcceptance p) s = .next t ∧ t.ctrl.mode = s.ctrl.mode
      ∧ t.align.accepted = some k ∧ t.align.candidate = some k ∧ t.align.confirm = min 255 (s.align.confirm + 1)
      ∧ t.align.leads = ⟨.unreported, .unreported⟩
      ∧ t.align.delays.get on = dOn ∧ t.align.delays.get on.other = dOff
      ∧ t.align.deferred = (s.ctrl.mode.isTransition || s.align.deferred)
      ∧ t.align.clamp = (if s.ctrl.mode.isTransition then s.align.clamp
          else decide ((s.ctrl.mode = .idle ∧ (dOn : Int) ≠ g + max 0 kOn) ∨ (dOff : Int) ≠ dOn - kOn))
      ∧ ∃ r ∈ t.events.records, r.body = .skew k dOff ∧ r.stamp = BitVec.ofNat 32 s.clock.window.toNat)
  ∧ ∀ (s : State) (p : Port), s.WindowDue p →
    ∃ t, exec (.windowClose p) s = .next t ∧
      let lead : Option Int := match s.taken p .data with
        | some f => if (t.ports.get p).rx = .locked ∧ f.run = true then
            some (signed40 (f.position - BitVec.ofNat 40 (32 * s.clock.window.toNat))) else none
        | none => none
      let kept := t.align.candidate = s.align.candidate ∧ t.align.confirm = s.align.confirm ∧ t.align.accepted = s.align.accepted
      (s.align.leads.get p.other = .unreported → t.align.leads = s.align.leads.set p (.reported lead) ∧ kept)
      ∧ ∀ other, s.align.leads.get p.other = .reported other →
        t.align.leads = ⟨.unreported, .unreported⟩
        ∧ (lead = none ∨ other = none → kept)
        ∧ ∀ mine its, lead = some mine → other = some its →
          let k := signed40 (BitVec.ofInt 40 (if p = .a then mine - its else its - mine))
          let count := if s.align.candidate = some k then min 255 (s.align.confirm + 1) else 1
          t.align.candidate = some k ∧ t.align.confirm = count
          ∧ (s.applyDeferred = false →
            t.align.accepted = if s.tables.live.kSkew ≤ count then some k else s.align.accepted)

/-- R44, R46, R49, R50: in ON_X, a window of X that is absent, brings RUN clear or predicts it clear, with 63 such windows before it, finds
the delays of X off their recentre value and recentres both, with RECENTRE recorded. That RECENTRE as a command is this window close is
the model's choice (log 3). -/
def Obligations.StoppedPortIsRecentred : Prop :=
  ∀ (s : State) (x : Port), s.WindowDue x → s.ctrl.mode = .on x → s.align.transition = false → 63 ≤ s.align.stopped.get x →
    (s.outcome x = .absent ∨ (∃ f, s.outcome x = .valid f ∧ f.run = false ∧ f.lane = [])
      ∨ s.raises x .check = true ∧ ((s.ports.get x).rx = .locked → ∀ r ∈ (s.ports.get x).lastValid, r.run = false)) →
    fillOf s.events.records + 128 ≤ 1024 →
    let g : Int := s.tables.live.guardDelay
    let kOn : Int := match s.align.accepted with
      | some k => if x = .a then k else -k
      | none => 0
    let limit : Int → Nat := fun d => (max 64 (min 2016 d)).toNat
    let dOn := if s.align.accepted = none then s.tables.live.guardDelay else limit (g + max 0 kOn)
    let dOff := if s.align.accepted = none then s.tables.live.guardDelay else limit (dOn - kOn)
    s.align.delays.get x ≠ dOn →
    exec .recentre s = exec (.windowClose x) s
    ∧ ∃ t, exec .recentre s = .next t ∧ t.ctrl.mode = .on x ∧ t.align.delays.get x = dOn ∧ t.align.delays.get x.other = dOff
      ∧ t.align.stopped.get x = 64 ∧ t.align.accepted = s.align.accepted
      ∧ t.align.clamp = decide (s.align.accepted ≠ none ∧ ((dOn : Int) ≠ g + max 0 kOn ∨ (dOff : Int) ≠ dOn - kOn))
      ∧ ∃ r ∈ t.events.records, r.body = .recentre x (s.align.delays.get x) dOn

/-- R124, R125: a message in progress through a window that neither breaks the lane stream nor brings lane bytes ages by one, whatever
the receiver state and whether the window is absent or takes a span whose number follows the lane continuity; at 65 it is discarded with
a TIMEOUT error, counted and recorded, and the command of that name is that window close; younger, the command leaves the state (log 3). -/
def Obligations.OldMessageTimesOut : Prop :=
  ∀ (s : State) (p : Port), s.WindowDue p → (s.ports.get p).deframer.busy = true →
    let x := s.ports.get p
    let d := x.deframer
    let c := x.counters
    (s.outcome p = .absent ∧ (x.rx = .locked → min 255 (x.absentRun + 1) < s.tables.live.nDown)
      ∨ (∃ f, s.outcome p = .valid f ∧ f.lane = [] ∧ x.rx = .locked ∧ (f.kind = .data ∨ f.kind = .idle)
          ∧ d.continuity = some (f.number - 1))
      ∨ (∃ f, s.outcome p = .valid f ∧ (x.rx = .standby ∨ x.rx = .down))) →
    let continuity := match s.outcome p with
      | .valid f => if x.rx = .locked then some f.number else d.continuity
      | _ => d.continuity
    (d.age < 64 → exec (.timeout p) s = .next s.settleLines
      ∧ ∃ t, exec (.windowClose p) s = .next t ∧ (t.ports.get p).deframer = { d with age := d.age + 1, continuity := continuity })
    ∧ (64 ≤ d.age → exec (.timeout p) s = exec (.windowClose p) s
      ∧ ∃ t, exec (.timeout p) s = .next t ∧ (t.ports.get p).deframer = ⟨.hunt, [], false, 0, continuity⟩
        ∧ (t.ports.get p).counters.timeout = min 4294967295 (c.timeout + 1)
        ∧ (s.outcome p = .absent → (t.ports.get p).counters = { c with
            absentWindows := min 4294967295 (c.absentWindows + 1), timeout := min 4294967295 (c.timeout + 1) })
        ∧ (fillOf t.events.records + 12 ≤ 1024 → ∃ r ∈ t.events.records,
            r.body = .mgmtError p .timeout (min 16777215 (min 4294967295 (c.timeout + 1)))))

/-- R77: a sampling of the contacts at which neither is pressed: each closed contact's count goes up by one, to at most 4, each open one's
is 0, the lines take their levels, and nothing else changes. A sampling at which one is pressed is what PRESS of that contact does, the
key as it was (log 3). -/
def Obligations.SamplingDebouncesTheContacts : Prop :=
  (∀ (s : State) (forceA forceB key : Bool), s.run = .running → s.clock.begun = true → s.clock.made = 32 → s.clock.panelDone = false →
    (forceA = true → s.ctrl.debounce.a ≠ 3) → (forceB = true → s.ctrl.debounce.b ≠ 3) →
    exec (.panelSampling forceA forceB key) s = .next (State.settleLines
      { s with
        ctrl := { s.ctrl with debounce := ⟨if forceA = true then min 4 (s.ctrl.debounce.a + 1) else 0,
                                           if forceB = true then min 4 (s.ctrl.debounce.b + 1) else 0⟩ }
        clock := { s.clock with panelDone := true }
        pins := { s.pins with forceA := forceA, forceB := forceB, showlock := key } }))
  ∧ ∀ (s : State) (x : Port) (held : Bool), s.run = .running → s.clock.begun = true → s.clock.made = 32 → s.clock.panelDone = false →
    s.ctrl.debounce.get x = 3 →
    exec (.panelSampling (if x = .a then true else held) (if x = .b then true else held) s.pins.showlock) s = exec (.press x held) s

/-- R77, R78: the fourth closed sampling of a contact is a press, judged in the order of the table with the other contact open: refused, a
REVERSAL scheduled, or a pending NOW record created; PANEL is recorded with its flag. With the other contact closed it is refused, and
with both pressed at one sampling each is, with a PANEL record for each. With a count other than 3 there is no press and the command
leaves the state (log 3). Choices of the model: PANEL follows PENDING_CANCELLED, and A's record precedes B's (log 13); a press in IDLE
with a ready port is refused (log 24). -/
def Obligations.PressForcesAReadyPort : Prop :=
  ∀ (s : State) (x : Port), s.run = .running → s.clock.begun = true → s.clock.made = 32 → s.clock.panelDone = false →
    (s.ctrl.debounce.get x ≠ 3 → ∀ held, exec (.press x held) s = .next s.settleLines)
    ∧ (s.ctrl.debounce.get x = 3 →
      let pressed : Bool → State := fun held => { s with
        clock := { s.clock with panelDone := true }
        pins := { s.pins with forceA := if x = .a then true else held, forceB := if x = .b then true else held } }
      let counts : Bool → PerPort Nat := fun held =>
        (s.ctrl.debounce.set x 4).set x.other (if held then min 4 (s.ctrl.debounce.get x.other + 1) else 0)
      (s.ctrl.debounce.get x.other ≠ 3 → exec (.press x true) s = .next (State.settleLines
        { pressed true with ctrl := { s.ctrl with debounce := counts true }, events := s.recording [.panel x true] }))
      ∧ (s.ctrl.debounce.get x.other = 3 → exec (.press x true) s = .next (State.settleLines
        { pressed true with ctrl := { s.ctrl with debounce := ⟨4, 4⟩ }, events := s.recording [.panel .a true, .panel .b true] }))
      ∧ exec (.press x false) s = .next (State.settleLines (
        if s.ctrl.mode = .on x ∨ s.ready x = false ∨ s.ctrl.scheduled ≠ none ∨ s.ctrl.mode = .idle ∨ s.ctrl.mode = .opening x
            ∨ s.ctrl.mode = .opening x.other ∨ s.ctrl.mode = .fade x.other then
          { pressed false with ctrl := { s.ctrl with debounce := counts false }, events := s.recording [.panel x true] }
        else if s.ctrl.mode = .fade x then
          { pressed false with
            ctrl := { s.ctrl with debounce := counts false, scheduled := some ⟨.reversal, x, .panel⟩ }
            mixer := { s.mixer with owedStart := false }
            events := s.recording [.panel x false] }
        else
          { pressed false with
            ctrl := { s.ctrl with debounce := counts false, pendingSwitch := some ⟨x, .now, .panel⟩ }
            mixer := { s.mixer with owedSwitch := false }
            events := s.recording ((match s.ctrl.pendingSwitch with
              | some r => [.pendingCancelled r.target r.cause]
              | none => []) ++ [.panel x false]) })))

/-- R3, R156, R157: a span of 6166 bytes is valid exactly when its check word is the CRC-16 of the bytes before it, its kind code is one of
four and its lane count at most 8; a valid span is read by the layout of 11.1. -/
def Obligations.SpanIsJudgedWhole : Prop :=
  ∀ bytes : List Byte, bytes.length = 6166 →
    let kind : Option SpanKind := if bytes.getD 0 0 = 0x5A then some .data else if bytes.getD 0 0 = 0x3C then some .idle
      else if bytes.getD 0 0 = 0x96 then some .sync else if bytes.getD 0 0 = 0xC3 then some .standby else none
    let number := (bytes.getD 2 0).toNat * 256 + (bytes.getD 3 0).toNat
    ((∃ f, judgeSpan bytes = .valid f)
      ↔ (bytes.getD 6164 0).toNat * 256 + (bytes.getD 6165 0).toNat = crc16 (bytes.take 6164) ∧ kind ≠ none
        ∧ (bytes.getD 11 0).toNat ≤ 8)
    ∧ ∀ f, judgeSpan bytes = .valid f →
      kind = some f.kind ∧ f.number = BitVec.ofNat 12 number ∧ f.run = (bytes.getD 1 0).getLsbD 7 ∧ f.mark = (bytes.getD 1 0).getLsbD 6
        ∧ (f.mark = true → f.markOffset = (bytes.getD 1 0).toNat % 32) ∧ f.song = bytes.getD 4 0 ∧ f.heartbeat = bytes.getD 5 0
        ∧ f.position = bytes.getD 6 0 ++ bytes.getD 7 0 ++ bytes.getD 8 0 ++ bytes.getD 9 0 ++ bytes.getD 10 0
        ∧ f.lane = (bytes.drop 12).take (bytes.getD 11 0).toNat ∧ f.audio.length = 2048
        ∧ ∀ j < 32, ∀ k < 64, f.audio.getD (64 * j + k) 0
          = bytes.getD (20 + 3 * (64 * j + k)) 0 ++ bytes.getD (21 + 3 * (64 * j + k)) 0 ++ bytes.getD (22 + 3 * (64 * j + k)) 0

/-- 8.1, R121 to R125, R128: framing and deframing agree: a message of 2 to 96 bytes, escaped and put between separators, is given by a
deframer that was in HUNT as that one message, and leaves it in BODY with nothing held. A message of 1 byte is a SHORT error there. One of
97 bytes or more is a LONG error, raised by its 97th byte, after which the bytes up to the separator are discarded. An escape byte, after
any part of a message, that a separator follows is an ESCAPE error that opens the next message; followed by another byte that is neither
0x01 nor 0x02 it is one that leaves HUNT. At a window that hands its lane, a number that does not follow the lane continuity breaks the
stream first, as a BROKEN error when a message is in progress; where the lane completes no message, the deframer, its age counted, the
four error counters and the MGMT_ERROR records are those of the errors raised. -/
def Obligations.DeframerInvertsFraming : Prop :=
  let run : Deframer → List Byte → Deframer × List DeframerOut := fun d bytes =>
    bytes.foldl (fun (x : Deframer × List DeframerOut) b =>
        ((deframeByte x.1 b).1, x.2 ++ (deframeByte x.1 b).2.toList)) (d, [])
  let opened : List Byte → List Byte := fun m => 0xF4 :: m.flatMap escapeByte
  (∀ (d : Deframer) (m : List Byte), d.mode = .hunt → 2 ≤ m.length → m.length ≤ 96 →
    run d (frameMessage m) = (⟨.body, [], false, 0, d.continuity⟩, [.message m]))
  ∧ (∀ (d : Deframer) (b : Byte), d.mode = .hunt → run d (frameMessage [b]) = (⟨.body, [], false, 0, d.continuity⟩, [.error .short]))
  ∧ (∀ (d : Deframer) (m : List Byte), d.mode = .hunt → 97 ≤ m.length →
    run d (frameMessage m) = (⟨.body, [], false, 0, d.continuity⟩, [.error .long])
    ∧ run d (opened (m.take 96)) = (⟨.body, m.take 96, true, 0, d.continuity⟩, [])
    ∧ run d (opened (m.take 97)) = (⟨.hunt, [], false, 0, d.continuity⟩, [.error .long]))
  ∧ (∀ (d : Deframer) (m : List Byte) (b : Byte), d.mode = .hunt → m.length ≤ 96 → b ≠ 0x01 → b ≠ 0x02 →
    run d (opened m ++ [0xF5, b])
      = (⟨if b = 0xF4 then .body else .hunt, [], false, 0, d.continuity⟩, [.error .escape]))
  ∧ ∀ (s : State) (p : Port) (f : ForwardSpan), s.WindowDue p → s.outcome p = .valid f → (f.kind = .data ∨ f.kind = .idle) →
    let x := s.ports.get p
    let d := x.deframer
    (x.rx = .locked ∨ x.rx = .training ∧ s.tables.live.lSync ≤ x.sync) →
    let gap : Bool := match d.continuity with
      | some n => decide (f.number ≠ n + 1)
      | none => decide (d.busy = true ∧ d.mode ≠ .hunt)
    let handed : Deframer := if gap then ⟨.hunt, [], false, 0, some f.number⟩ else { d with continuity := some f.number }
    let left := (run handed f.lane).1
    let outs := (run handed f.lane).2
    let raised : MgmtErrorKind → Nat := fun k =>
      outs.count (.error k) + if k = .broken ∧ gap = true ∧ d.busy = true then 1 else 0
    (∀ m, .message m ∉ outs) →
    ∃ t, exec (.windowClose p) s = .next t
      ∧ (t.ports.get p).deframer = (if left.busy = false then left
        else if left.age < 64 then { left with age := left.age + 1 } else ⟨.hunt, [], false, 0, some f.number⟩)
      ∧ ∀ k ∈ [MgmtErrorKind.short, .long, .escape, .broken],
        let count := (t.ports.get p).counters.ofKind k
        count = (if raised k = 0 then x.counters.ofKind k else min 4294967295 (x.counters.ofKind k + raised k))
        ∧ (0 < raised k → fillOf t.events.records + 12 ≤ 1024 →
          ∃ r ∈ t.events.records, r.body = .mgmtError p k (min 16777215 count))

/-- R16, R92, R121, R125 to R128, R142: a request that comes whole in the lane of one span is executed at that window close, and its one
reply, with its tag, verb and stamp, is placed behind the reply bytes the port held; IDENT with its payload. A request of a port without
reply room waits: it enters the queue, WAIT is set at three or four messages, and with four held it is dropped with a DROPPED error.
With a request waiting at each port the engine takes first from the port its pointer names, then from the other; one without room is
passed over. A request commanded within a span is taken when the span's samples are made, and the last of them by itself is followed by
the engine's look (logs 6 and 7: the model's choices of these instants). -/
def Obligations.LaneRequestIsServed : Prop :=
  (∀ (s : State) (p : Port) (f : ForwardSpan) (tag verb : Byte) (operands : List Byte), s.WindowDue p → s.CanServe p →
    (s.ports.get p).rx = .locked → s.outcome p = .valid f → (f.kind = .data ∨ f.kind = .idle) →
    f.lane = frameMessage (tag :: verb :: operands) →
    (s.ports.get p).deframer.busy = false → (s.ports.get p).deframer.body = [] → (s.ports.get p).deframer.mode ≠ .escape →
    ∃ t status payload, exec (.windowClose p) s = .next t ∧ (t.ports.get p).requests = []
      ∧ (t.ports.get p).replies = (s.ports.get p).replies ++ frameMessage ([tag, verb, statusCode status]
        ++ [BitVec.ofNat 8 (s.clock.window.toNat / 256), BitVec.ofNat 8 s.clock.window.toNat] ++ payload)
      ∧ (verb = 0 ∨ 13 < verb.toNat → status = .badVerb ∧ payload = [])
      ∧ (verb = 0x0D → operands = [] → status = .ok ∧ payload = [0x3A, 0x71, 0x19, 0x02, 0x01, if s.rate = .khz48 then 0 else 1]))
  ∧ (∀ (s : State) (p : Port) (tag : Byte), s.run = .running → (s.clock.begun = true → s.clock.made = 32) →
    512 < (s.ports.get p).replies.length + 194 → (s.ports.get p.other).requests = [] →
    let x := s.ports.get p
    let dropped := min 4294967295 (x.counters.dropped + 1)
    exec (.ident p tag []) s = .next (State.settleLines (
      if x.requests.length < 4 then
        { s with ports := s.ports.set p { x with
            requests := x.requests ++ [[tag, 0x0D]], wait := x.wait || decide (3 ≤ x.requests.length + 1) } }
      else { s with ports := s.ports.set p { x with counters := { x.counters with dropped := dropped } },
                    events := s.recording [.mgmtError p .dropped (min 16777215 dropped)] })))
  ∧ (∀ (s : State) (p : Port) (tag tag' verb' : Byte) (operands' : List Byte), s.run = .running →
    (s.clock.begun = true → s.clock.made = 32) → (s.ports.get p).requests = [] →
    (s.ports.get p.other).requests = [tag' :: verb' :: operands'] →
    (s.ports.get p.other).replies.length + 194 ≤ 512 →
    let entered := { s with ports := s.ports.set p { s.ports.get p with requests := [[tag, 0x0D]] } }
    exec (.ident p tag []) s = .next (State.settleLines (
      if (s.ports.get p).replies.length + 194 ≤ 512 then serveRequest s.pointer.other (serveRequest s.pointer entered)
      else serveRequest p.other entered)))
  ∧ (∀ (s : State) (c : Instr) (p : Port) (tag verb : Byte) (operands : List Byte) (key : Bool), s.run = .running →
    s.clock.begun = true → s.clock.made < 32 →
    c ∈ [.state p tag operands, .read p tag operands, .write p tag operands, .apply p tag operands, .discard p tag operands,
      .switch p tag operands, .auto p tag operands, .lock p tag operands key, .events p tag operands, .flush p tag operands,
      .save p tag operands, .counters p tag operands, .ident p tag operands, .badVerb p tag verb operands] →
    exec c s = exec c (finishSamples s) ∧ (finishSamples s).clock.made = 32
      ∧ (s.clock.made = 31 → exec .programSample s = .next (finishSamples s).settleLines))

/-! ## Requests -/

/-- R130, R159, 11.4: STATE answers OK with the 35 bytes of the snapshot and changes nothing of the part; the count of free values is the
model's own (log 12). The snapshot's bytes are read off the state field by field: an absent pending record is 0xFF and zeros, an absent
skew zeros; the song of a record without AT_SONG (log 12) and the flag bits above AUTO and DEGRADED (log 34) are free. -/
def Obligations.StateReplyIsTheSnapshot : Prop :=
  ∀ (s : State) (p : Port) (tag : Byte), s.CanServe p →
    let skew := ((s.align.accepted.getD 0) % 2 ^ 40).toNat
    exec (.state p tag []) s = .next (s.served { s with free := s.free + 2 } p tag 0x01 .ok (statePayload s))
      ∧ (statePayload s).length = 35
      ∧ (statePayload s).take 7 = [modeCode s.ctrl.mode, portCode s.ctrl.mode.onAir, portCode s.ctrl.mode.target,
          BitVec.ofNat 8 (s.ctrl.q / 256), BitVec.ofNat 8 s.ctrl.q, BitVec.ofNat 8 (s.ctrl.len / 256), BitVec.ofNat 8 s.ctrl.len]
      ∧ (∃ song : Byte, ((statePayload s).drop 7).take 4 = (match s.ctrl.pendingSwitch with
          | none => [0xFF, 0, 0, 0]
          | some r => [portCode (some r.target), triggerCode r.trigger, song, switchCauseCode r.cause])
        ∧ ∀ r ∈ s.ctrl.pendingSwitch, ∀ n, r.trigger = .atSong n → song = n)
      ∧ (∃ song : Byte, ((statePayload s).drop 11).take 3 = (match s.tables.apply with
          | none => [0xFF, 0, 0]
          | some r => [triggerCode r.trigger, song, phaseCode r.phase])
        ∧ ∀ r ∈ s.tables.apply, ∀ n, r.trigger = .atSong n → song = n)
      ∧ ((statePayload s).getD 14 0).getLsbD 0 = s.ctrl.auto ∧ ((statePayload s).getD 14 0).getLsbD 1 = s.ctrl.degraded
      ∧ ((statePayload s).drop 15).take 6 = [rxCode s.ports.a.rx, verdictCode s.health.a.verdict, BitVec.ofNat 8 s.health.a.score,
          rxCode s.ports.b.rx, verdictCode s.health.b.verdict, BitVec.ofNat 8 s.health.b.score]
      ∧ ((statePayload s).drop 21).take 10 = [alignStateCode (alignmentState s.align), BitVec.ofNat 8 (skew / 2 ^ 32),
          BitVec.ofNat 8 (skew / 2 ^ 24), BitVec.ofNat 8 (skew / 2 ^ 16), BitVec.ofNat 8 (skew / 2 ^ 8), BitVec.ofNat 8 skew,
          BitVec.ofNat 8 (s.align.delays.a / 256), BitVec.ofNat 8 s.align.delays.a,
          BitVec.ofNat 8 (s.align.delays.b / 256), BitVec.ofNat 8 s.align.delays.b]
      ∧ ((statePayload s).drop 31) = [if s.store.writing.isSome then 1 else 0, BitVec.ofNat 8 s.tables.lock.code.val,
          if s.tables.lock.complement then 1 else 0, lockModeCode s.tables.lock.mode]

/-- R131: READ returns the named copy's entries from the first index on, with the wrap past the table's last index and the count clamped
to what one reply carries; the tests come in the rule's order, and nothing but the reply changes. -/
def Obligations.ReadReturnsEntriesWithWrap : Prop :=
  ∀ (s : State) (p : Port) (tag table copy hi lo count : Byte), s.CanServe p →
    exec (.read p tag [table, copy, hi, lo, count]) s = .next (
      match tableOfCode table with
      | none => s.served s p tag 0x02 .badTable []
      | some t =>
        let first := hi.toNat * 256 + lo.toNat
        let n := min count.toNat t.maxEntries
        if t.lastIndex < first then s.served s p tag 0x02 .badIndex []
        else if 1 < copy.toNat then s.served s p tag 0x02 .badValue []
        else s.served s p tag 0x02 .ok (BitVec.ofNat 8 n :: (List.range n).flatMap fun j =>
          tableEntryBytes (if copy = 1 then s.tables.staged else s.tables.live) t ((first + j) % (t.lastIndex + 1))))

/-- R100, R101, R113, R132, 11.3: the tests of a WRITE in their order; a request that fails one writes nothing, and one that passes all of
them changes the staged copy of its table alone. The value test passes exactly when every field of every entry is in its range, for a
PROFILE field the range of its index; then the entries named, with the wrap past the last index, read as the bytes written, every other
entry of the table reads as before, and the other two tables stand. -/
def Obligations.WriteIsTestedInOrder : Prop :=
  (∀ (s : State) (p : Port) (tag table hi lo : Byte) (entries : List Byte), s.CanServe p → entries.length ≤ 91 →
    exec (.write p tag (table :: hi :: lo :: entries)) s = .next (
      match tableOfCode table with
      | none => s.served s p tag 0x03 .badTable []
      | some t =>
        let first := hi.toNat * 256 + lo.toNat
        let n := entries.length / t.entryBytes
        let indices := (List.range n).map fun j => (first + j) % (t.lastIndex + 1)
        if t.lastIndex < first then s.served s p tag 0x03 .badIndex []
        else if entries.length % t.entryBytes ≠ 0 ∨ t.maxEntries < n then s.served s p tag 0x03 .badLength []
        else match stagedWith t s.tables.staged indices entries with
          | none => s.served s p tag 0x03 .badValue []
          | some staged =>
            if lockEngaged s.tables.lock = true
                ∧ ((t = .route ∧ ∃ k ∈ indices, channelLocked s.tables.lock k = true) ∨ (t ≠ .route ∧ 0 < n)) then s.served s p tag 0x03 .locked []
            else s.served { s with tables := { s.tables with staged := staged } } p tag 0x03 .ok []))
  ∧ ∀ (name : TableName) (old : Tables) (first : Nat) (entries : List Byte),
    let size := name.lastIndex + 1
    let n := entries.length / name.entryBytes
    let word : Nat → Nat := fun j => (entries.getD (2 * j) 0).toNat * 256 + (entries.getD (2 * j + 1) 0).toNat
    let slot : Byte → Prop := fun b => b.toNat < 64 ∨ b = 0xFF
    let bounds : Nat → Nat × Nat := fun i =>
      if i ∈ [7, 8, 9, 11, 22, 23, 24] then (1, 255) else if i = 10 then (0, 254) else if i = 14 ∨ i = 15 then (0, 1)
      else if i = 16 then (1, 65535) else if i = 17 ∨ i = 18 ∨ i = 19 then (0, 64) else if i = 20 then (0, 3)
      else if i = 21 then (64, 1024) else if i = 26 then (1, 5) else if i = 27 then (0, 65535) else (0, 255)
    let inRange : Nat → Prop := fun j => match name with
      | .route => (entries.getD (4 * j) 0).toNat ≤ 5 ∧ slot (entries.getD (4 * j + 1) 0) ∧ slot (entries.getD (4 * j + 2) 0)
          ∧ (entries.getD (4 * j + 3) 0).toNat ≤ 3
      | .curve => word j ≤ 32768
      | .profile =>
        let i := (first + j) % 28
        (bounds i).1 ≤ word j ∧ word j ≤ (bounds i).2 ∧ ((i = 12 ∨ i = 13) → word j < 64 ∨ word j = 255)
    old.route.length = 64 → old.curve.length = 260 → old.profile.length = 28 → first < size →
    entries.length % name.entryBytes = 0 → n ≤ name.maxEntries →
    let written := stagedWith name old ((List.range n).map fun j => (first + j) % size) entries
    (written = none ↔ ∃ j < n, ¬ inRange j)
    ∧ ∀ new, written = some new →
      (name ≠ .route → new.route = old.route) ∧ (name ≠ .curve → new.curve = old.curve) ∧ (name ≠ .profile → new.profile = old.profile)
      ∧ (∀ j < n, tableEntryBytes new name ((first + j) % size) = (entries.drop (name.entryBytes * j)).take name.entryBytes)
      ∧ (∀ k < size, (∀ j < n, (first + j) % size ≠ k) → tableEntryBytes new name k = tableEntryBytes old name k)
      ∧ new.route.length = 64 ∧ new.curve.length = 260 ∧ new.profile.length = 28

/-- R99, R101, R131: what a WRITE has written, a READ of the staged copy at the same place returns byte for byte. -/
def Obligations.WriteThenReadReturnsTheEntries : Prop :=
  ∀ (s : State) (p q : Port) (tag rtag table hi lo : Byte) (entries : List Byte) (name : TableName) (staged : Tables),
    let first := hi.toNat * 256 + lo.toNat
    let n := entries.length / name.entryBytes
    s.TablesSound → s.CanServe p → lockEngaged s.tables.lock = false → tableOfCode table = some name → first ≤ name.lastIndex →
    entries.length % name.entryBytes = 0 → n ≤ name.maxEntries →
    stagedWith name s.tables.staged ((List.range n).map fun j => (first + j) % (name.lastIndex + 1)) entries = some staged →
    ∃ t, exec (.write p tag (table :: hi :: lo :: entries)) s = .next t ∧ t.tables.staged = staged
      ∧ (t.CanServe q → exec (.read q rtag [table, 0x01, hi, lo, BitVec.ofNat 8 n]) t
          = .next (t.served t q rtag 0x02 .ok (BitVec.ofNat 8 n :: entries)))

/-- R102, R103, R133: APPLY answers the trigger test and then the first validation condition that fails; only when all hold is the
pending apply record created or replaced, WAITING. The live and staged tables stand in every case. -/
def Obligations.ApplyValidatesBeforeItWaits : Prop :=
  ∀ (s : State) (p : Port) (tag trigger song : Byte), s.CanServe p →
    exec (.apply p tag [trigger, song]) s = .next (
      match triggerOfCode trigger song with
      | none => s.served s p tag 0x04 .badValue []
      | some trig =>
        if ¬∀ n : Fin 4, s.tables.staged.curve[65 * n.val]? = some 0 ∧ s.tables.staged.curve[65 * n.val + 64]? = some 32768
            ∧ ∀ i : Fin 64, s.tables.staged.curve.getD (65 * n.val + i.val) 0 ≤ s.tables.staged.curve.getD (65 * n.val + i.val + 1) 0
        then s.served s p tag 0x04 .badCurve []
        else if ¬(s.tables.staged.tOk < s.tables.staged.tWarn ∧ s.tables.staged.tWarn ≤ s.tables.staged.tFail) then
          s.served s p tag 0x04 .badProfile []
        else if lockEngaged s.tables.lock = true
            ∧ ((∃ k : Fin 64, channelLocked s.tables.lock k.val = true ∧ s.tables.staged.route[k.val]? ≠ s.tables.live.route[k.val]?)
              ∨ s.tables.staged.curve ≠ s.tables.live.curve ∨ s.tables.staged.profile ≠ s.tables.live.profile) then
          s.served s p tag 0x04 .locked []
        else s.served { s with tables := { s.tables with apply := some ⟨trig, .waiting⟩ },
                               mixer := { s.mixer with owedApply := false } } p tag 0x04 .pending [])

/-- R107, R134: DISCARD sets the staged copy to the live one and removes the pending apply record whatever its phase and whatever the
lock record holds, and is answered OK. -/
def Obligations.DiscardRestoresTheStagedCopy : Prop :=
  ∀ (s : State) (p : Port) (tag : Byte), s.CanServe p →
    exec (.discard p tag []) s
      = .next (s.served { s with tables := { s.tables with staged := s.tables.live, apply := none } } p tag 0x05 .ok [])

/-- R72, R135, with R70 for the record a new one replaces: the controller's table for a SWITCH request, condition by condition.
Before it, a target code other than A or B, or a trigger code other than the three, is BAD_VALUE and changes nothing (R135, R158). That a
request in IDLE toward a ready port with no scheduled start, which is no row of that table, is BUSY is the model's reading (log 24). -/
def Obligations.SwitchFollowsItsTable : Prop :=
  ∀ (s : State) (p : Port) (tag target trigger song : Byte), s.CanServe p →
    exec (.switch p tag [target, trigger, song]) s = .next (
      let t : Port := if target = 0 then .a else .b
      let trig : Trigger := if trigger = 0 then .now else if trigger = 1 then .atMark else .atSong song
      if 1 < target.toNat ∨ 2 < trigger.toNat then s.served s p tag 0x06 .badValue []
      else if s.ctrl.mode = .on t then s.served s p tag 0x06 .already []
      else if s.ready t = false then s.served s p tag 0x06 .notReady []
      else if s.ctrl.scheduled ≠ none then s.served s p tag 0x06 .busy []
      else if s.ctrl.mode = .opening t ∨ s.ctrl.mode = .fade t.other then s.served s p tag 0x06 .already []
      else if s.ctrl.mode = .opening t.other ∨ s.ctrl.mode = .idle then s.served s p tag 0x06 .busy []
      else if s.ctrl.mode = .fade t then
        s.served { s with ctrl := { s.ctrl with scheduled := some ⟨.reversal, t, .request⟩ },
                          mixer := { s.mixer with owedStart := false } } p tag 0x06 .ok []
      else
        s.served { s with ctrl := { s.ctrl with pendingSwitch := some ⟨t, trig, .request⟩ },
                          mixer := { s.mixer with owedSwitch := false },
                          events := s.recording (match s.ctrl.pendingSwitch with
                            | some r => [.pendingCancelled r.target r.cause]
                            | none => []) } p tag 0x06 .pending [])

/-- R74, R115, R136: a request for the value that AUTO already holds is OK and changes nothing, the lock engaged or not. AUTO off is
refused while the lock is engaged and else clears the flag alone; AUTO on is always taken, and resolves a degraded ON_X with a ready
other port as R66 gives (a FADE start toward it with cause FAILURE, and any pending switch record cancelled), unless a start is
scheduled. Other operands are BAD_VALUE. How the sentences of R136 on off and on the value already held are read together is log 19. -/
def Obligations.AutoObeysTheLock : Prop :=
  ∀ (s : State) (p : Port) (tag value : Byte), s.CanServe p →
    (1 < value.toNat → exec (.auto p tag [value]) s = .next (s.served s p tag 0x07 .badValue []))
    ∧ exec (.auto p tag [0x00]) s = .next (
        if s.ctrl.auto = false then s.served s p tag 0x07 .ok []
        else if lockEngaged s.tables.lock = true then s.served s p tag 0x07 .locked []
        else s.served { s with ctrl := { s.ctrl with auto := false } } p tag 0x07 .ok [])
    ∧ exec (.auto p tag [0x01]) s = .next (
        if s.ctrl.auto = true then s.served s p tag 0x07 .ok []
        else match s.ctrl.mode with
        | .on x =>
          if s.ctrl.degraded = true ∧ s.ready x.other = true ∧ s.ctrl.scheduled = none then
            s.served { s with ctrl := { s.ctrl with auto := true, pendingSwitch := none,
                                                    scheduled := some ⟨.fade, x.other, .failure⟩ },
                              mixer := { s.mixer with owedStart := false },
                              events := s.recording (match s.ctrl.pendingSwitch with
                                | some r => [.pendingCancelled r.target r.cause]
                                | none => []) } p tag 0x07 .ok []
          else s.served { s with ctrl := { s.ctrl with auto := true } } p tag 0x07 .ok []
        | _ => s.served { s with ctrl := { s.ctrl with auto := true } } p tag 0x07 .ok [])

/-- R116, R117, R137: a LOCK request is tested for its values, then against the mode of the record held, LATCHED always refusing and
LINE refusing while SHOWLOCK is asserted at that moment; one that passes replaces all three fields. The request carries the level of
the SHOWLOCK line. -/
def Obligations.LockFollowsTheModeHeld : Prop :=
  ∀ (s : State) (p : Port) (tag code complement mode : Byte) (key : Bool), s.CanServe p →
    exec (.lock p tag [code, complement, mode] key) s = .next (
      let s1 : State := { s with pins := { s.pins with showlock := key } }
      if h : code.toNat < 8 ∧ complement.toNat ≤ 1 ∧ mode.toNat ≤ 2 then
        if s.tables.lock.mode = .latched ∨ (s.tables.lock.mode = .line ∧ key = true) then s.served s1 p tag 0x08 .locked []
        else s.served { s1 with tables := { s.tables with lock :=
          { code := ⟨code.toNat, h.1⟩, complement := decide (complement = 1),
            mode := if mode = 0 then .openMode else if mode = 1 then .line else .latched } } } p tag 0x08 .ok []
      else s.served s1 p tag 0x08 .badValue [])

/-- R138, R139, R146: EVENTS takes the longest run of whole records from the front that stays within the maximum (0 taken as 1) and 88
bytes, returns it with the number left and the lost count, and leaves the rest in order. FLUSH empties the event queue and zeroes the lost
count, and nothing else. -/
def Obligations.EventsAreReadOldestFirstOrFlushed : Prop :=
  ∀ (s : State) (p : Port) (tag maximum : Byte), s.CanServe p →
    (∃ n : Nat, n ≤ s.events.records.length ∧ n ≤ max 1 maximum.toNat ∧ fillOf (s.events.records.take n) ≤ 88
      ∧ (n = s.events.records.length ∨ n = max 1 maximum.toNat ∨ 88 < fillOf (s.events.records.take (n + 1)))
      ∧ exec (.events p tag [maximum]) s = .next (s.served { s with events := { s.events with records := s.events.records.drop n } }
          p tag 0x09 .ok ([BitVec.ofNat 8 n, BitVec.ofNat 8 (s.events.records.length - n), BitVec.ofNat 8 s.events.lost]
            ++ (s.events.records.take n).flatMap EventRecord.bytes)))
    ∧ exec (.flush p tag []) s = .next (s.served { s with events := ⟨[], 0⟩ } p tag 0x0A .ok [])

/-- R19, R141: COUNTERS returns the port and its eleven counts in order, 4 bytes each, and with the clear flag zeroes them after the
reading; other operands are BAD_VALUE. -/
def Obligations.CountersAreReadThenCleared : Prop :=
  ∀ (s : State) (p : Port) (tag port clear : Byte), s.CanServe p →
    exec (.counters p tag [port, clear]) s = .next (
      if port.toNat ≤ 1 ∧ clear.toNat ≤ 1 then
        let x : Port := if port = 0 then .a else .b
        let c := (s.ports.get x).counters
        s.served
          (if clear = 1 then
            { s with ports := s.ports.set x { s.ports.get x with counters := ⟨0, 0, 0, 0, 0, 0, 0, 0, 0, 0, 0⟩ } }
          else s)
          p tag 0x0C .ok (port :: [c.taken, c.checkFailures, c.absentWindows, c.overruns, c.sequenceFaults, c.short, c.long, c.escape,
            c.timeout, c.broken, c.dropped].flatMap (bytesOfNat 4))
      else s.served s p tag 0x0C .badValue [])

/-- R142, 11.4: IDENT returns vendor 0x3A71, part 6402, revision 1 and the RATE selection, and changes nothing. -/
def Obligations.IdentReportsThePart : Prop :=
  ∀ (s : State) (p : Port) (tag : Byte), s.CanServe p →
    exec (.ident p tag []) s = .next (s.served s p tag 0x0D .ok [0x3A, 0x71, 0x19, 0x02, 0x01, if s.rate = .khz48 then 0 else 1])

/-- R127: a verb code that names none of the thirteen verbs is answered BAD_VERB with its own code in the reply, and operand bytes of
the wrong number BAD_LENGTH; either changes nothing but the reply queue. -/
def Obligations.UnknownVerbsAndLengthsAreRefused : Prop :=
  ∀ (s : State) (p : Port) (tag : Byte) (operands : List Byte), s.CanServe p → operands.length ≤ 94 →
    (∀ verb : Byte, (verb = 0 ∨ 13 < verb.toNat) →
      exec (.badVerb p tag verb operands) s = .next (s.served s p tag verb .badVerb []))
    ∧ (operands.length ≠ 0 →
      exec (.state p tag operands) s = .next (s.served s p tag 0x01 .badLength [])
      ∧ exec (.discard p tag operands) s = .next (s.served s p tag 0x05 .badLength [])
      ∧ exec (.flush p tag operands) s = .next (s.served s p tag 0x0A .badLength [])
      ∧ exec (.save p tag operands) s = .next (s.served s p tag 0x0B .badLength [])
      ∧ exec (.ident p tag operands) s = .next (s.served s p tag 0x0D .badLength []))
    ∧ (operands.length ≠ 5 → exec (.read p tag operands) s = .next (s.served s p tag 0x02 .badLength []))
    ∧ (operands.length < 3 → exec (.write p tag operands) s = .next (s.served s p tag 0x03 .badLength []))
    ∧ (operands.length ≠ 2 →
      exec (.apply p tag operands) s = .next (s.served s p tag 0x04 .badLength [])
      ∧ exec (.counters p tag operands) s = .next (s.served s p tag 0x0C .badLength []))
    ∧ (operands.length ≠ 3 → exec (.switch p tag operands) s = .next (s.served s p tag 0x06 .badLength []))
    ∧ (operands.length ≠ 3 → ∀ key : Bool, exec (.lock p tag operands key) s
        = .next (s.served { s with pins := { s.pins with showlock := key } } p tag 0x08 .badLength []))
    ∧ (operands.length ≠ 1 →
      exec (.auto p tag operands) s = .next (s.served s p tag 0x07 .badLength [])
      ∧ exec (.events p tag operands) s = .next (s.served s p tag 0x09 .badLength []))

/-! ## Invariants that every step keeps -/

/-- R143, R145: from a queue of whole records within 1024 bytes, with a lost count in 0..255, every step gives such a queue. -/
def Obligations.EveryStepKeepsTheEventQueueWhole : Prop :=
  ∀ s t : State, s.EventsFit → step s = .next t → t.EventsFit

/-- R43, R99, R100, R102: every step keeps each field of both copies of the tables in its range, the live copy valid in its curves and
thresholds, and the delays within 64..2016, in the alignment record and as the program span is read. -/
def Obligations.EveryStepKeepsTablesAndDelaysSound : Prop :=
  ∀ s t : State, s.TablesSound ∧ s.DelaysInRange → step s = .next t → t.TablesSound ∧ t.DelaysInRange

/-- R58, R59, R61, R64, R66, R70, R78: every step keeps a pending switch record to ON_X toward the other port, with no scheduled start
beside it. -/
def Obligations.EveryStepKeepsTheSwitchRecordArmed : Prop :=
  ∀ s t : State, s.SwitchArmed → step s = .next t → t.SwitchArmed

/-- R22, R30, R33, R34: every step keeps each port's verdict FAILED with score 255 outside LOCKED, the monitor's lock view with the
receiver, and scores and clean counts in 0..255. -/
def Obligations.EveryStepKeepsVerdictsUnderLock : Prop :=
  ∀ s t : State, s.VerdictsNeedLock → step s = .next t → t.VerdictsNeedLock

/-- R4, R77, R92, R121, R124, R125, R128: every step keeps the elastic stores, rings, deframers, request and reply queues, the samples of
a period and the debounce counts within their bounds. -/
def Obligations.EveryStepKeepsTheBuffersBounded : Prop :=
  ∀ s t : State, s.BuffersBounded → step s = .next t → t.BuffersBounded

/-- The state right after reset has every one of the invariants. -/
def Obligations.ResetStateIsSound : Prop :=
  State.reset.Sound
end

