-- ==== Sys2Proof/Laws/State.lean ====
section
/-! SUPPORT. One lemma per field per update of the state's small writers, so that no later proof unfolds one: the per-port pairs, the
writers of one port's records, the settling of the lines, and the placing of an event. -/

namespace Sys2Proof.Machine

/-! ### Per-port pairs -/

@[simp] theorem Port.other_other (p : Port) : p.other.other = p := by cases p <;> rfl

@[simp] theorem Port.other_ne (p : Port) : p.other ≠ p := by cases p <;> decide

@[simp] theorem Port.ne_other (p : Port) : p ≠ p.other := by cases p <;> decide

theorem Port.eq_or_other (p q : Port) : q = p ∨ q = p.other := by cases p <;> cases q <;> decide

@[simp] theorem PerPort.get_set_self {α : Type} (x : PerPort α) (p : Port) (v : α) : (x.set p v).get p = v := by
  cases p <;> rfl

@[simp] theorem PerPort.get_set_other {α : Type} (x : PerPort α) (p : Port) (v : α) :
    (x.set p v).get p.other = x.get p.other := by cases p <;> rfl

theorem PerPort.get_set_ne {α : Type} (x : PerPort α) (p q : Port) (v : α) (h : q ≠ p) : (x.set p v).get q = x.get q := by
  cases p <;> cases q <;> first | rfl | exact absurd rfl h

@[simp] theorem PerPort.get_both {α : Type} (v : α) (p : Port) : (PerPort.both v).get p = v := by cases p <;> rfl

@[simp] theorem PerPort.set_get {α : Type} (x : PerPort α) (p : Port) : x.set p (x.get p) = x := by cases p <;> rfl

@[simp] theorem PerPort.set_set {α : Type} (x : PerPort α) (p : Port) (v w : α) : (x.set p v).set p w = x.set p w := by
  cases p <;> rfl

theorem PerPort.ext_get {α : Type} {x y : PerPort α} (h : ∀ p, x.get p = y.get p) : x = y := by
  cases x; cases y
  have ha := h .a
  have hb := h .b
  simp only [PerPort.get] at ha hb
  rw [ha, hb]

/-! ### Writers of one port's records -/

@[simp] theorem setPort_ports (s : State) (p : Port) (x : ShowPort) : (s.setPort p x).ports = s.ports.set p x := rfl

@[simp] theorem setPort_health (s : State) (p : Port) (x : ShowPort) : (s.setPort p x).health = s.health := rfl

@[simp] theorem setPort_ctrl (s : State) (p : Port) (x : ShowPort) : (s.setPort p x).ctrl = s.ctrl := rfl

@[simp] theorem setPort_align (s : State) (p : Port) (x : ShowPort) : (s.setPort p x).align = s.align := rfl

@[simp] theorem setPort_tables (s : State) (p : Port) (x : ShowPort) : (s.setPort p x).tables = s.tables := rfl

@[simp] theorem setPort_events (s : State) (p : Port) (x : ShowPort) : (s.setPort p x).events = s.events := rfl

@[simp] theorem setPort_clock (s : State) (p : Port) (x : ShowPort) : (s.setPort p x).clock = s.clock := rfl

@[simp] theorem setPort_mixer (s : State) (p : Port) (x : ShowPort) : (s.setPort p x).mixer = s.mixer := rfl

@[simp] theorem setPort_run (s : State) (p : Port) (x : ShowPort) : (s.setPort p x).run = s.run := rfl

@[simp] theorem setPort_pending (s : State) (p : Port) (x : ShowPort) : (s.setPort p x).pending = s.pending := rfl

@[simp] theorem setHealth_health (s : State) (p : Port) (h : HealthRecord) : (s.setHealth p h).health = s.health.set p h := rfl

@[simp] theorem setHealth_ports (s : State) (p : Port) (h : HealthRecord) : (s.setHealth p h).ports = s.ports := rfl

@[simp] theorem setHealth_ctrl (s : State) (p : Port) (h : HealthRecord) : (s.setHealth p h).ctrl = s.ctrl := rfl

@[simp] theorem setHealth_align (s : State) (p : Port) (h : HealthRecord) : (s.setHealth p h).align = s.align := rfl

@[simp] theorem setHealth_tables (s : State) (p : Port) (h : HealthRecord) : (s.setHealth p h).tables = s.tables := rfl

@[simp] theorem setHealth_events (s : State) (p : Port) (h : HealthRecord) : (s.setHealth p h).events = s.events := rfl

/-! ### The lines and the end of a command -/

@[simp] theorem settleLines_lines (s : State) : s.settleLines.lines = outputLines s := rfl

@[simp] theorem settleLines_pending (s : State) : s.settleLines.pending = s.pending := rfl

@[simp] theorem settleLines_run (s : State) : s.settleLines.run = s.run := rfl

@[simp] theorem settleLines_rate (s : State) : s.settleLines.rate = s.rate := rfl

@[simp] theorem settleLines_pins (s : State) : s.settleLines.pins = s.pins := rfl

@[simp] theorem settleLines_clock (s : State) : s.settleLines.clock = s.clock := rfl

@[simp] theorem settleLines_ports (s : State) : s.settleLines.ports = s.ports := rfl

@[simp] theorem settleLines_prog (s : State) : s.settleLines.prog = s.prog := rfl

@[simp] theorem settleLines_health (s : State) : s.settleLines.health = s.health := rfl

@[simp] theorem settleLines_align (s : State) : s.settleLines.align = s.align := rfl

@[simp] theorem settleLines_ctrl (s : State) : s.settleLines.ctrl = s.ctrl := rfl

@[simp] theorem settleLines_mixer (s : State) : s.settleLines.mixer = s.mixer := rfl

@[simp] theorem settleLines_tables (s : State) : s.settleLines.tables = s.tables := rfl

@[simp] theorem settleLines_pointer (s : State) : s.settleLines.pointer = s.pointer := rfl

@[simp] theorem settleLines_events (s : State) : s.settleLines.events = s.events := rfl

@[simp] theorem settleLines_store (s : State) : s.settleLines.store = s.store := rfl

@[simp] theorem settleLines_sentReturn (s : State) : s.settleLines.sentReturn = s.sentReturn := rfl

@[simp] theorem settleLines_sentProgram (s : State) : s.settleLines.sentProgram = s.sentProgram := rfl

@[simp] theorem settleLines_free (s : State) : s.settleLines.free = s.free := rfl

/-- The lines depend on the run state, the controller state, the live mask and the queue alone. -/
@[simp] theorem outputLines_settleLines (s : State) : outputLines s.settleLines = outputLines s := rfl

/-- A running part's command ends in the settled state of its effect. -/
theorem whileRunning_of_running {f : State → State} {s : State} (h : s.run = .running) :
    whileRunning f s = .next (f s).settleLines := by
  simp [whileRunning, h, complete]

/-- A part that is held in reset or has no power keeps its state. -/
theorem whileRunning_of_stopped {f : State → State} {s : State} (h : s.run ≠ .running) :
    whileRunning f s = .next s.settleLines := by
  simp [whileRunning, h, complete]

/-! ### Placing an event -/

@[simp] theorem offerEvent_events (b : EventBody) (s : State) : (offerEvent b s).events = s.events.offer ⟨b, s.stamp⟩ := rfl

@[simp] theorem offerEvent_pending (b : EventBody) (s : State) : (offerEvent b s).pending = s.pending := rfl

@[simp] theorem offerEvent_run (b : EventBody) (s : State) : (offerEvent b s).run = s.run := rfl

@[simp] theorem offerEvent_rate (b : EventBody) (s : State) : (offerEvent b s).rate = s.rate := rfl

@[simp] theorem offerEvent_pins (b : EventBody) (s : State) : (offerEvent b s).pins = s.pins := rfl

@[simp] theorem offerEvent_lines (b : EventBody) (s : State) : (offerEvent b s).lines = s.lines := rfl

@[simp] theorem offerEvent_clock (b : EventBody) (s : State) : (offerEvent b s).clock = s.clock := rfl

@[simp] theorem offerEvent_ports (b : EventBody) (s : State) : (offerEvent b s).ports = s.ports := rfl

@[simp] theorem offerEvent_prog (b : EventBody) (s : State) : (offerEvent b s).prog = s.prog := rfl

@[simp] theorem offerEvent_health (b : EventBody) (s : State) : (offerEvent b s).health = s.health := rfl

@[simp] theorem offerEvent_align (b : EventBody) (s : State) : (offerEvent b s).align = s.align := rfl

@[simp] theorem offerEvent_ctrl (b : EventBody) (s : State) : (offerEvent b s).ctrl = s.ctrl := rfl

@[simp] theorem offerEvent_mixer (b : EventBody) (s : State) : (offerEvent b s).mixer = s.mixer := rfl

@[simp] theorem offerEvent_tables (b : EventBody) (s : State) : (offerEvent b s).tables = s.tables := rfl

@[simp] theorem offerEvent_pointer (b : EventBody) (s : State) : (offerEvent b s).pointer = s.pointer := rfl

@[simp] theorem offerEvent_store (b : EventBody) (s : State) : (offerEvent b s).store = s.store := rfl

@[simp] theorem offerEvent_sentReturn (b : EventBody) (s : State) : (offerEvent b s).sentReturn = s.sentReturn := rfl

@[simp] theorem offerEvent_sentProgram (b : EventBody) (s : State) : (offerEvent b s).sentProgram = s.sentProgram := rfl

@[simp] theorem offerEvent_free (b : EventBody) (s : State) : (offerEvent b s).free = s.free := rfl

end Sys2Proof.Machine
end

