-- ==== Sys2Proof/Laws/Control.lean ====
section
/-! SUPPORT. What the operations of the controller, the alignment unit and table memory can do: one lemma each, saying that the operation
stays within a frame. -/

namespace Sys2Proof.Machine

/-- The guard delay lies in its range in both copies (R100). -/
abbrev State.GuardOk (s : State) : Prop :=
  (64 ≤ s.tables.live.guardDelay ∧ s.tables.live.guardDelay ≤ 1024)
    ∧ (64 ≤ s.tables.staged.guardDelay ∧ s.tables.staged.guardDelay ≤ 1024)

/-- Both delays of the alignment record lie in 64..2016 (R43). -/
abbrev State.AlignDelaysOk (s : State) : Prop :=
  ∀ p, 64 ≤ s.align.delays.get p ∧ s.align.delays.get p ≤ 2016

/-- The events of `t` are those of `s` with some records offered after them. -/
def State.Offered (s t : State) : Prop :=
  ∃ rs : List EventRecord, t.events = rs.foldl EventQueue.offer s.events

theorem Offered.refl (s : State) : s.Offered s := ⟨[], rfl⟩

theorem Offered.trans {s t u : State} (h1 : s.Offered t) (h2 : t.Offered u) : s.Offered u := by
  obtain ⟨a, ha⟩ := h1
  obtain ⟨b, hb⟩ := h2
  exact ⟨a ++ b, by rw [hb, ha, List.foldl_append]⟩

/-- The live tables of `t` are those of `s`, or an adoption of the staged copy that passed validation. -/
def State.LiveStep (s t : State) : Prop :=
  t.tables.live = s.tables.live
    ∨ (t.tables.live = s.tables.staged ∧ curvesShaped s.tables.staged = true ∧ thresholdsOrdered s.tables.staged = true
        ∧ lockCondition s.tables.lock s.tables.live s.tables.staged = true)

/-- What the controller, the alignment unit and table memory can change outside a request: the switch record and its companions, the
alignment record, the answers the mixer is owed, the live tables by adoption, the pending apply record, and the event queue by
offers. -/
structure ControlFrame (s t : State) : Prop where
  pending : t.pending = s.pending
  run : t.run = s.run
  rate : t.rate = s.rate
  pins : t.pins = s.pins
  lines : t.lines = s.lines
  clock : t.clock = s.clock
  ports : t.ports = s.ports
  prog : t.prog = s.prog
  health : t.health = s.health
  pointer : t.pointer = s.pointer
  store : t.store = s.store
  sentReturn : t.sentReturn = s.sentReturn
  sentProgram : t.sentProgram = s.sentProgram
  free : t.free = s.free
  staged : t.tables.staged = s.tables.staged
  lock : t.tables.lock = s.tables.lock
  rows : t.mixer.rows = s.mixer.rows
  firstMark : t.mixer.firstMark = s.mixer.firstMark
  readDelays : t.mixer.delays = s.mixer.delays
  earlyMark : t.mixer.earlyMark = s.mixer.earlyMark
  debounce : t.ctrl.debounce = s.ctrl.debounce
  offered : s.Offered t
  live : s.LiveStep t
  delays : s.GuardOk → s.AlignDelaysOk → t.AlignDelaysOk

theorem LiveStep.refl (s : State) : s.LiveStep s := .inl rfl

theorem ControlFrame.refl (s : State) : ControlFrame s s :=
  ⟨rfl, rfl, rfl, rfl, rfl, rfl, rfl, rfl, rfl, rfl, rfl, rfl, rfl, rfl, rfl, rfl, rfl, rfl, rfl, rfl, rfl, Offered.refl s,
    LiveStep.refl s, fun _ h => h⟩

theorem GuardOk.step {s t : State} (hl : s.LiveStep t) (hs : t.tables.staged = s.tables.staged) (h : s.GuardOk) : t.GuardOk := by
  obtain hl | ⟨hl, -⟩ := hl
  · exact ⟨by rw [hl]; exact h.1, by rw [hs]; exact h.2⟩
  · exact ⟨by rw [hl]; exact h.2, by rw [hs]; exact h.2⟩

theorem LiveStep.trans {s t u : State} (h1 : s.LiveStep t) (h2 : t.LiveStep u) (hs : t.tables.staged = s.tables.staged)
    (hk : t.tables.lock = s.tables.lock) : s.LiveStep u := by
  obtain h2 | ⟨h2, a, b, c⟩ := h2
  · obtain h1 | ⟨h1, h⟩ := h1
    · exact .inl (h2.trans h1)
    · exact .inr ⟨h2.trans h1, h⟩
  · rw [hs] at h2 a b c
    obtain h1 | ⟨-, h⟩ := h1
    · rw [h1, hk] at c
      exact .inr ⟨h2, a, b, c⟩
    · exact .inr ⟨h2, h⟩

theorem ControlFrame.trans {s t u : State} (h1 : ControlFrame s t) (h2 : ControlFrame t u) : ControlFrame s u where
  pending := h2.pending.trans h1.pending
  run := h2.run.trans h1.run
  rate := h2.rate.trans h1.rate
  pins := h2.pins.trans h1.pins
  lines := h2.lines.trans h1.lines
  clock := h2.clock.trans h1.clock
  ports := h2.ports.trans h1.ports
  prog := h2.prog.trans h1.prog
  health := h2.health.trans h1.health
  pointer := h2.pointer.trans h1.pointer
  store := h2.store.trans h1.store
  sentReturn := h2.sentReturn.trans h1.sentReturn
  sentProgram := h2.sentProgram.trans h1.sentProgram
  free := h2.free.trans h1.free
  staged := h2.staged.trans h1.staged
  lock := h2.lock.trans h1.lock
  rows := h2.rows.trans h1.rows
  firstMark := h2.firstMark.trans h1.firstMark
  readDelays := h2.readDelays.trans h1.readDelays
  earlyMark := h2.earlyMark.trans h1.earlyMark
  debounce := h2.debounce.trans h1.debounce
  offered := Offered.trans h1.offered h2.offered
  live := LiveStep.trans h1.live h2.live h1.staged h1.lock
  delays := fun g d => h2.delays (GuardOk.step h1.live h1.staged g) (h1.delays g d)

theorem ControlFrame.ready {s t : State} (h : ControlFrame s t) (p : Port) : t.ready p = s.ready p := by
  simp [State.ready, h.health]

/-! ### Small writers -/

theorem frame_offerEvent (b : EventBody) (s : State) : ControlFrame s (offerEvent b s) :=
  ⟨rfl, rfl, rfl, rfl, rfl, rfl, rfl, rfl, rfl, rfl, rfl, rfl, rfl, rfl, rfl, rfl, rfl, rfl, rfl, rfl, rfl, ⟨[⟨b, s.stamp⟩], rfl⟩,
    LiveStep.refl _, fun _ h => h⟩

/-- A write of the controller's record that leaves the debounce counts is within the frame. -/
theorem frame_ctrl (s : State) (c : Controller) (h : c.debounce = s.ctrl.debounce) : ControlFrame s { s with ctrl := c } :=
  ⟨rfl, rfl, rfl, rfl, rfl, rfl, rfl, rfl, rfl, rfl, rfl, rfl, rfl, rfl, rfl, rfl, rfl, rfl, rfl, rfl, h, Offered.refl _,
    LiveStep.refl _, fun _ h => h⟩

theorem frame_holdoff (n : Nat) (s : State) : ControlFrame s { s with ctrl := { s.ctrl with holdoff := n } } :=
  frame_ctrl s _ rfl

/-- A write of the alignment record that leaves the delays is within the frame. -/
theorem frame_align (s : State) (al : Alignment) (h : al.delays = s.align.delays) : ControlFrame s { s with align := al } :=
  ⟨rfl, rfl, rfl, rfl, rfl, rfl, rfl, rfl, rfl, rfl, rfl, rfl, rfl, rfl, rfl, rfl, rfl, rfl, rfl, rfl, rfl, Offered.refl _,
    LiveStep.refl _, fun _ d p => by simpa [h] using d p⟩

theorem frame_cancelPendingSwitch (s : State) : ControlFrame s (cancelPendingSwitch s) := by
  unfold cancelPendingSwitch
  split
  · exact .refl s
  · exact (frame_ctrl s { s.ctrl with pendingSwitch := none } rfl).trans (frame_offerEvent _ _)

theorem frame_createPendingSwitch (r : PendingSwitch) (s : State) : ControlFrame s (createPendingSwitch r s) := by
  refine (frame_cancelPendingSwitch s).trans ?_
  exact ⟨rfl, rfl, rfl, rfl, rfl, rfl, rfl, rfl, rfl, rfl, rfl, rfl, rfl, rfl, rfl, rfl, rfl, rfl, rfl, rfl, rfl, Offered.refl _,
    LiveStep.refl _, fun _ h => h⟩

/-- The record a new pending switch record replaces, as the events its removal records. -/
def replacedRecord : Option PendingSwitch → List EventBody
  | some r => [.pendingCancelled r.target r.cause]
  | none => []

/-- All that creating a pending switch record does (R70). -/
theorem createPendingSwitch_eq (r : PendingSwitch) (s : State) :
    createPendingSwitch r s
      = { s with ctrl := { s.ctrl with pendingSwitch := some r }, mixer := { s.mixer with owedSwitch := false },
                 events := s.recording (replacedRecord s.ctrl.pendingSwitch) } := by
  unfold createPendingSwitch cancelPendingSwitch replacedRecord
  cases s.ctrl.pendingSwitch with
  | none => rfl
  | some x => rfl

/-- All that scheduling a failover does (R64). -/
theorem scheduleFailover_eq (y : Port) (s : State) :
    scheduleFailover y s
      = { s with ctrl := { s.ctrl with pendingSwitch := none, scheduled := some ⟨.fade, y, .failure⟩ },
                 mixer := { s.mixer with owedStart := false }, events := s.recording (replacedRecord s.ctrl.pendingSwitch) } := by
  unfold scheduleFailover scheduleStart cancelPendingSwitch replacedRecord
  cases h : s.ctrl.pendingSwitch with
  | none => simp [State.recording, ← h]
  | some x => rfl

theorem frame_scheduleStart (a : StartAction) (p : Port) (c : SwitchCause) (s : State) :
    ControlFrame s (scheduleStart a p c s) :=
  ⟨rfl, rfl, rfl, rfl, rfl, rfl, rfl, rfl, rfl, rfl, rfl, rfl, rfl, rfl, rfl, rfl, rfl, rfl, rfl, rfl, rfl, Offered.refl _,
    LiveStep.refl _, fun _ h => h⟩

theorem frame_clearDegraded (s : State) : ControlFrame s (clearDegraded s) :=
  frame_ctrl s { s.ctrl with degraded := false } rfl

theorem frame_setDegraded (s : State) : ControlFrame s (setDegraded s) := by
  unfold setDegraded
  split
  · exact .refl s
  · exact (frame_ctrl s { s.ctrl with degraded := true } rfl).trans (frame_offerEvent _ _)

/-! ### The alignment unit -/

theorem clampDelay_range (x : Int) : 64 ≤ clampDelay x ∧ clampDelay x ≤ 2016 := by
  simp only [clampDelay, Config.delayMin, Config.delayMax]
  omega

/-- A clamped delay, as an integer, is the value brought into 64..2016 (R43). -/
theorem clampDelay_eq (x : Int) : (clampDelay x : Int) = max 64 (min 2016 x) := by
  simp only [clampDelay, Config.delayMin, Config.delayMax]
  omega

theorem recentrePair_range (g : Nat) (k : Option Int) (h : 64 ≤ g ∧ g ≤ 2016) :
    (64 ≤ (recentrePair g k).dOn ∧ (recentrePair g k).dOn ≤ 2016)
      ∧ (64 ≤ (recentrePair g k).dOff ∧ (recentrePair g k).dOff ≤ 2016) := by
  cases k with
  | none => exact ⟨h, h⟩
  | some k => exact ⟨clampDelay_range _, clampDelay_range _⟩

theorem setDelays_align_delays (on : Port) (d : DelayPair) (s : State) (p : Port) :
    (setDelays on d s).align.delays.get p = if p = on then d.dOn else d.dOff := by
  cases on <;> cases p <;> rfl

theorem frame_setDelays (on : Port) (d : DelayPair) (s : State)
    (h : s.GuardOk → s.AlignDelaysOk → (64 ≤ d.dOn ∧ d.dOn ≤ 2016) ∧ (64 ≤ d.dOff ∧ d.dOff ≤ 2016)) :
    ControlFrame s (setDelays on d s) :=
  ⟨rfl, rfl, rfl, rfl, rfl, rfl, rfl, rfl, rfl, rfl, rfl, rfl, rfl, rfl, rfl, rfl, rfl, rfl, rfl, rfl, rfl, Offered.refl _,
    LiveStep.refl _, fun g a p => by
      rw [setDelays_align_delays]
      split
      · exact (h g a).1
      · exact (h g a).2⟩

theorem frame_setDelays_recentre (s : State) (on : Port) : ControlFrame s (setDelays on s.recentreNow s) :=
  frame_setDelays _ _ _ fun g _ => recentrePair_range _ _ ⟨g.1.1, by have := g.1.2; simp only [State.live]; omega⟩

theorem frame_setDelays_offAir (s : State) (k : Int) : ControlFrame s (setDelays s.onPort (s.offAirNow k) s) :=
  frame_setDelays _ _ _ fun _ a => ⟨a _, clampDelay_range _⟩

theorem frame_recordClamp (b : Bool) (k : Int) (s : State) : ControlFrame s (recordClamp b k s) := by
  unfold recordClamp
  split
  · exact frame_offerEvent _ _
  · exact .refl s

theorem frame_applyRecentre (s : State) : ControlFrame s (applyRecentre s) := by
  unfold applyRecentre
  split
  · exact frame_setDelays_recentre _ _
  · exact (frame_setDelays_recentre _ _).trans (frame_recordClamp _ _ _)

theorem frame_applyOffAir (s : State) : ControlFrame s (applyOffAir s) := by
  unfold applyOffAir
  split
  · exact .refl s
  · exact (frame_setDelays_offAir _ _).trans (frame_recordClamp _ _ _)

theorem frame_startNotice (s : State) : ControlFrame s (startNotice s) :=
  frame_align s { s.align with transition := true } rfl

theorem frame_endNotice (s : State) : ControlFrame s (endNotice s) := by
  unfold endNotice
  refine (frame_align s { s.align with transition := false, deferred := false } rfl).trans ?_
  dsimp only
  split
  · exact frame_applyOffAir _
  · exact .refl _

theorem frame_abandonNotice (s : State) : ControlFrame s (abandonNotice s) := by
  unfold abandonNotice
  refine (frame_align s { s.align with transition := false, deferred := false } rfl).trans ?_
  dsimp only
  split
  · exact frame_applyRecentre _
  · exact .refl _

theorem frame_acceptSkew (k : Int) (s : State) : ControlFrame s (acceptSkew k s) := by
  unfold acceptSkew
  refine (frame_align s { s.align with accepted := some k } rfl).trans ?_
  dsimp only
  split
  · exact ((frame_setDelays_recentre _ _).trans (frame_offerEvent _ _)).trans (frame_recordClamp _ _ _)
  · exact ((frame_setDelays_offAir _ _).trans (frame_offerEvent _ _)).trans (frame_recordClamp _ _ _)
  · refine .trans ?_ (frame_offerEvent _ _)
    exact frame_align _ _ rfl
  · refine .trans ?_ (frame_offerEvent _ _)
    exact frame_align _ _ rfl

theorem confirmSkew_delays (k : Int) (al : Alignment) : (confirmSkew k al).delays = al.delays := by
  unfold confirmSkew
  split <;> rfl

theorem frame_skewStep (k : Int) (s : State) : ControlFrame s (skewStep k s) := by
  unfold skewStep
  refine (frame_align s (confirmSkew k s.align) (confirmSkew_delays k s.align)).trans ?_
  dsimp only
  split
  · exact frame_acceptSkew _ _
  · exact .refl _

theorem frame_gatherLead (p : Port) (l : Option Int) (s : State) : ControlFrame s (gatherLead p l s) := by
  unfold gatherLead
  split
  · exact frame_align _ _ rfl
  · refine (frame_align s { s.align with leads := PerPort.both .unreported } rfl).trans ?_
    dsimp only
    split
    · exact frame_skewStep _ _
    · exact .refl _

theorem frame_recentreOnAir (p : Port) (s : State) : ControlFrame s (recentreOnAir p s) := by
  unfold recentreOnAir
  have h := (frame_setDelays_recentre s p).trans
    (frame_offerEvent (.recentre p (s.align.delays.get p) s.recentreNow.dOn) (setDelays p s.recentreNow s))
  dsimp only
  split
  · exact h
  · exact h.trans (frame_recordClamp _ _ _)

theorem frame_takeAlignmentReport (p : Port) (r : WindowReport) (slot : Slot) (s : State) :
    ControlFrame s (takeAlignmentReport p r slot s) := by
  have h : ControlFrame s (gatherLead p r.lead (updateStopped p slot s)) := by
    refine .trans ?_ (frame_gatherLead _ _ _)
    exact frame_align _ _ rfl
  unfold takeAlignmentReport
  dsimp only
  split
  · exact h.trans (frame_recentreOnAir _ _)
  · exact h

/-! ### Table memory -/

theorem validate_none {tm : TableMemory} (h : validate tm = none) :
    curvesShaped tm.staged = true ∧ thresholdsOrdered tm.staged = true ∧ lockCondition tm.lock tm.live tm.staged = true := by
  unfold validate at h
  split at h
  · cases h
  · split at h
    · cases h
    · split at h
      · cases h
      · simp_all

theorem frame_adopt (s : State) : ControlFrame s (adopt s) := by
  unfold adopt
  dsimp only
  split
  · next h =>
    exact ⟨rfl, rfl, rfl, rfl, rfl, rfl, rfl, rfl, rfl, rfl, rfl, rfl, rfl, rfl, rfl, rfl, rfl, rfl, rfl, rfl, rfl, Offered.refl _,
      .inr ⟨rfl, validate_none h⟩, fun _ h => h⟩
  · exact ⟨rfl, rfl, rfl, rfl, rfl, rfl, rfl, rfl, rfl, rfl, rfl, rfl, rfl, rfl, rfl, rfl, rfl, rfl, rfl, rfl, rfl, Offered.refl _,
      LiveStep.refl _, fun _ h => h⟩

/-- The record of an adoption is offered, or nothing is. -/
theorem recordAdoption_eq (b s : State) : recordAdoption b s = offerEvent (adoptionRecord b.tables) s ∨ recordAdoption b s = s := by
  unfold recordAdoption
  split
  · exact .inl rfl
  · exact .inr rfl

theorem frame_recordAdoption (b s : State) : ControlFrame s (recordAdoption b s) := by
  obtain h | h := recordAdoption_eq b s <;> rw [h]
  · exact frame_offerEvent _ _
  · exact .refl s

theorem frame_meetApplyTrigger (s : State) : ControlFrame s (meetApplyTrigger s) := by
  unfold meetApplyTrigger
  split
  · exact .refl s
  · split
    · exact ⟨rfl, rfl, rfl, rfl, rfl, rfl, rfl, rfl, rfl, rfl, rfl, rfl, rfl, rfl, rfl, rfl, rfl, rfl, rfl, rfl, rfl, Offered.refl _,
        LiveStep.refl _, fun _ h => h⟩
    · exact frame_adopt s

theorem frame_releaseDeferred (s : State) : ControlFrame s (releaseDeferred s) := by
  unfold releaseDeferred
  split
  · exact frame_adopt s
  · exact .refl s

/-- A write of the answers owed to the span start is within the frame. -/
theorem frame_owed (s : State) (a b c : Bool) :
    ControlFrame s { s with mixer := { s.mixer with owedStart := a, owedSwitch := b, owedApply := c } } :=
  ⟨rfl, rfl, rfl, rfl, rfl, rfl, rfl, rfl, rfl, rfl, rfl, rfl, rfl, rfl, rfl, rfl, rfl, rfl, rfl, rfl, rfl, Offered.refl _,
    LiveStep.refl _, fun _ h => h⟩

theorem frame_tableSpanStart (s : State) : ControlFrame s (tableSpanStart s) := by
  unfold tableSpanStart
  refine (frame_owed s s.mixer.owedStart s.mixer.owedSwitch false).trans ?_
  dsimp only
  split
  · exact frame_meetApplyTrigger _
  · exact .refl _

theorem frame_tableMark (m : MarkReport) (s : State) : ControlFrame s (tableMark m s) := by
  unfold tableMark
  split
  · exact frame_meetApplyTrigger _
  · exact .refl _

/-! ### The controller -/

theorem frame_openingChoice (p : Port) (s : State) : ControlFrame s (openingChoice p s) := by
  unfold openingChoice
  split
  · exact frame_scheduleStart _ _ _ _
  · split
    · exact frame_ctrl _ _ rfl
    · exact .refl s

theorem frame_openingRechoice (p : Port) (s : State) : ControlFrame s (openingRechoice p s) := by
  unfold openingRechoice
  split
  · exact frame_openingChoice _ _
  · exact .refl s

theorem frame_withdrawStart (s : State) : ControlFrame s (withdrawStart s) := by
  unfold withdrawStart
  split
  · exact .refl s
  · refine (frame_ctrl s { s.ctrl with scheduled := none } rfl).trans ?_
    dsimp only
    split
    · exact frame_openingRechoice _ _
    · exact .refl _
    · split
      · exact .refl _
      · exact frame_setDegraded _
    · split
      · exact .refl _
      · exact frame_setDegraded _

theorem frame_convertReversal (s : State) : ControlFrame s (convertReversal s) := by
  unfold convertReversal
  split
  · exact frame_ctrl _ _ rfl
  · exact .refl s

theorem frame_beginTransition (target : Port) (cause : SwitchCause) (s : State) :
    ControlFrame s (beginTransition target cause s) := by
  unfold beginTransition
  dsimp only
  split
  · refine .trans (.trans (.trans ?_ (frame_offerEvent _ _)) (frame_offerEvent _ _)) (frame_convertReversal _)
    exact frame_ctrl _ _ rfl
  · refine .trans (.trans ?_ (frame_offerEvent _ _)) (frame_startNotice _)
    exact frame_ctrl _ _ rfl

theorem frame_beginScheduled (st : ScheduledStart) (s : State) : ControlFrame s (beginScheduled st s) := by
  unfold beginScheduled
  split
  · exact (frame_ctrl s { s.ctrl with scheduled := none } rfl).trans (frame_beginTransition _ _ _)
  · exact frame_withdrawStart s

theorem frame_beginReversal (x : Port) (s : State) : ControlFrame s (beginReversal x s) := by
  unfold beginReversal
  split
  · refine .trans ?_ (frame_offerEvent _ _)
    exact frame_ctrl _ _ rfl
  · exact frame_withdrawStart s

theorem frame_takeScheduled (s : State) : ControlFrame s (takeScheduled s) := by
  unfold takeScheduled
  split
  · exact .refl s
  · split
    · split
      · exact frame_beginScheduled _ _
      · exact frame_beginScheduled _ _
      · exact frame_beginReversal _ _
    · exact .refl s

theorem frame_firePendingSwitch (r : PendingSwitch) (s : State) : ControlFrame s (firePendingSwitch r s) := by
  unfold firePendingSwitch
  split
  · exact (frame_ctrl s { s.ctrl with pendingSwitch := none } rfl).trans (frame_beginTransition _ _ _)
  · exact frame_cancelPendingSwitch s

theorem frame_answerScheduled (s : State) : ControlFrame s (answerScheduled s) := by
  unfold answerScheduled
  refine (frame_owed s false s.mixer.owedSwitch s.mixer.owedApply).trans ?_
  dsimp only
  split
  · exact frame_takeScheduled _
  · exact .refl _

theorem frame_answerNow (s : State) : ControlFrame s (answerNow s) := by
  unfold answerNow
  refine (frame_owed s s.mixer.owedStart false s.mixer.owedApply).trans ?_
  dsimp only
  split
  · split
    · exact frame_firePendingSwitch _ _
    · exact .refl _
  · exact .refl _

theorem frame_controllerSpanStart (s : State) : ControlFrame s (controllerSpanStart s) :=
  (frame_answerScheduled s).trans (frame_answerNow _)

theorem frame_controllerMark (m : MarkReport) (s : State) : ControlFrame s (controllerMark m s) := by
  unfold controllerMark
  split
  · exact frame_firePendingSwitch _ _
  · exact .refl s

theorem frame_scheduleFailover (y : Port) (s : State) : ControlFrame s (scheduleFailover y s) :=
  (frame_cancelPendingSwitch s).trans (frame_scheduleStart _ _ _ _)

theorem frame_resolveDegraded (y : Port) (s : State) : ControlFrame s (resolveDegraded y s) := by
  unfold resolveDegraded
  split
  · exact .refl s
  · exact frame_scheduleFailover _ _

theorem frame_onAirFailed (x : Port) (s : State) : ControlFrame s (onAirFailed x s) := by
  unfold onAirFailed
  split
  · exact frame_resolveDegraded _ _
  · exact frame_setDegraded _

theorem frame_incomingFailed (x : Port) (s : State) : ControlFrame s (incomingFailed x s) := by
  unfold incomingFailed
  split
  · exact .refl s
  · split
    · exact frame_scheduleStart _ _ _ _
    · exact frame_setDegraded _

theorem frame_abandonOpening (x : Port) (s : State) : ControlFrame s (abandonOpening x s) := by
  unfold abandonOpening
  refine .trans (.trans (.trans (.trans (.trans ?_ (frame_offerEvent _ _)) (frame_abandonNotice _)) (frame_releaseDeferred _))
    (frame_recordAdoption _ _)) (frame_openingRechoice _ _)
  exact frame_ctrl _ _ rfl

theorem frame_respondVerdict (p : Port) (old new : Verdict) (s : State) : ControlFrame s (respondVerdict p old new s) := by
  unfold respondVerdict
  split
  · split
    · split
      · exact frame_withdrawStart _
      · exact .refl s
    · split
      · exact frame_openingChoice _ _
      · exact .refl s
  · split
    · exact frame_abandonOpening _ _
    · exact .refl s
  · split
    · split
      · exact frame_onAirFailed _ _
      · split
        · exact frame_clearDegraded _
        · exact .refl s
    · split
      · split
        · exact frame_withdrawStart _
        · exact .refl s
      · split
        · exact frame_resolveDegraded _ _
        · exact .refl s
  · split
    · split
      · exact frame_withdrawStart _
      · exact .refl s
    · split
      · exact frame_incomingFailed _ _
      · split
        · exact frame_clearDegraded _
        · exact .refl s

theorem frame_cancelRevert (s : State) : ControlFrame s (cancelRevert s) := by
  unfold cancelRevert
  split
  · exact frame_cancelPendingSwitch s
  · exact .refl s

theorem frame_resetHoldoff (s : State) : ControlFrame s (resetHoldoff s) :=
  (frame_ctrl s { s.ctrl with holdoff := 0 } rfl).trans (frame_cancelRevert _)

theorem frame_takeVerdictChange (p : Port) (old new : Verdict) (s : State) :
    ControlFrame s (takeVerdictChange p old new s) := by
  unfold takeVerdictChange
  refine (frame_respondVerdict p old new s).trans ?_
  dsimp only
  split
  · exact frame_resetHoldoff _
  · exact .refl _

theorem frame_takeNotice (p : Port) (v : Verdict) (s : State) : ControlFrame s (takeNotice p v s) := by
  unfold takeNotice
  split
  · split
    · refine (frame_ctrl s { s.ctrl with holdoff := satAdd 65535 s.ctrl.holdoff 1 } rfl).trans ?_
      dsimp only
      split
      · exact frame_createPendingSwitch _ _
      · exact .refl _
    · exact frame_resetHoldoff _
  · exact .refl s

theorem frame_examineOnAir (y : Port) (s : State) : ControlFrame s (examineOnAir y s) := by
  unfold examineOnAir
  split
  · exact frame_clearDegraded _
  · split
    · exact .refl s
    · split
      · exact frame_scheduleFailover _ _
      · exact frame_setDegraded _

theorem frame_endTransition (y : Port) (s : State) : ControlFrame s (endTransition y s) := by
  unfold endTransition
  refine .trans (.trans (.trans ?_ (frame_holdoff 0 _)) (frame_convertReversal _)) (frame_examineOnAir _ _)
  refine .trans (.trans (.trans ?_ (frame_offerEvent _ _)) (frame_endNotice _)) (frame_releaseDeferred _)
  exact frame_ctrl _ _ rfl

theorem frame_fadeEnd (s : State) : ControlFrame s (fadeEnd s) := by
  unfold fadeEnd
  split
  · exact .refl s
  · exact frame_endTransition _ _

theorem frame_setAuto (s : State) : ControlFrame s (setAuto s) := by
  unfold setAuto
  refine (frame_ctrl s { s.ctrl with auto := true } rfl).trans ?_
  dsimp only
  split
  · split
    · exact frame_resolveDegraded _ _
    · exact .refl _
  · exact .refl _

theorem frame_decideSwitch (t : Port) (trigger : Trigger) (s : State) : ControlFrame s (decideSwitch t trigger s).1 := by
  unfold decideSwitch
  split
  · exact .refl s
  · split
    · exact .refl s
    · split
      · exact .refl s
      · split
        · exact .refl s
        · exact .refl s
        · exact frame_createPendingSwitch _ _
        · split
          · exact frame_scheduleStart _ _ _ _
          · exact .refl s

theorem frame_judgePress (t : Port) (s : State) : ControlFrame s (judgePress t s).1 := by
  unfold judgePress
  split
  · exact .refl s
  · split
    · exact .refl s
    · split
      · exact .refl s
      · split
        · exact .refl s
        · split
          · exact .refl s
          · exact .refl s
          · split
            · exact frame_scheduleStart _ _ _ _
            · exact .refl s
          · exact frame_createPendingSwitch _ _

theorem frame_press (t : Port) (s : State) : ControlFrame s (press t s) :=
  (frame_judgePress t s).trans (frame_offerEvent _ _)

end Sys2Proof.Machine
end

