-- ==== Sys2Proof/Laws/Armed.lean ====
section
/-! SUPPORT. Each operation of the controller keeps a pending switch record in ON_X toward the other port, with no scheduled start beside
it (R70). -/

namespace Sys2Proof.Machine

/-- Operations that leave the mode, the scheduled start and the pending switch record leave the relation. -/
theorem armed_of_eq {s t : State} (hm : t.ctrl.mode = s.ctrl.mode) (hs : t.ctrl.scheduled = s.ctrl.scheduled)
    (hp : t.ctrl.pendingSwitch = s.ctrl.pendingSwitch) (h : s.SwitchArmed) : t.SwitchArmed := by
  intro r hr
  rw [hp] at hr
  rw [hm, hs]
  exact h r hr

theorem armed_of_none {t : State} (hp : t.ctrl.pendingSwitch = none) : t.SwitchArmed := by
  intro r hr
  rw [hp] at hr
  cases hr

/-- With a scheduled start there is no pending switch record. -/
theorem pending_none_of_scheduled {s : State} (h : s.SwitchArmed) (hs : s.ctrl.scheduled ≠ none) :
    s.ctrl.pendingSwitch = none := by
  cases hp : s.ctrl.pendingSwitch with
  | none => rfl
  | some r => exact absurd (h r hp).2 hs

/-- Outside the ON states there is no pending switch record. -/
theorem pending_none_of_mode {s : State} (h : s.SwitchArmed) (hm : ∀ x, s.ctrl.mode ≠ .on x) :
    s.ctrl.pendingSwitch = none := by
  cases hp : s.ctrl.pendingSwitch with
  | none => rfl
  | some r => exact absurd (h r hp).1 (hm _)

theorem cancelPendingSwitch_none (s : State) : (cancelPendingSwitch s).ctrl.pendingSwitch = none := by
  unfold cancelPendingSwitch
  split
  · assumption
  · rfl

theorem cancelPendingSwitch_mode (s : State) : (cancelPendingSwitch s).ctrl.mode = s.ctrl.mode := by
  unfold cancelPendingSwitch
  split <;> rfl

theorem cancelPendingSwitch_scheduled (s : State) : (cancelPendingSwitch s).ctrl.scheduled = s.ctrl.scheduled := by
  unfold cancelPendingSwitch
  split <;> rfl

theorem armed_cancelPendingSwitch (s : State) : (cancelPendingSwitch s).SwitchArmed :=
  armed_of_none (cancelPendingSwitch_none s)

theorem armed_createPendingSwitch (r : PendingSwitch) (s : State) (hm : s.ctrl.mode = .on r.target.other)
    (hs : s.ctrl.scheduled = none) : (createPendingSwitch r s).SwitchArmed := by
  intro r' hr'
  have : r = r' := by simpa [createPendingSwitch] using hr'
  subst this
  exact ⟨by simp [createPendingSwitch, cancelPendingSwitch_mode, hm],
    by simp [createPendingSwitch, cancelPendingSwitch_scheduled, hs]⟩

theorem armed_scheduleStart (a : StartAction) (p : Port) (c : SwitchCause) (s : State) (hp : s.ctrl.pendingSwitch = none) :
    (scheduleStart a p c s).SwitchArmed :=
  armed_of_none hp

theorem armed_scheduleFailover (y : Port) (s : State) : (scheduleFailover y s).SwitchArmed :=
  armed_scheduleStart _ _ _ _ (cancelPendingSwitch_none s)

theorem armed_resolveDegraded (y : Port) (s : State) (h : s.SwitchArmed) : (resolveDegraded y s).SwitchArmed := by
  unfold resolveDegraded
  split
  · exact h
  · exact armed_scheduleFailover y s

theorem armed_setDegraded (s : State) (h : s.SwitchArmed) : (setDegraded s).SwitchArmed := by
  unfold setDegraded
  split
  · exact h
  · exact armed_of_eq rfl rfl rfl h

theorem armed_openingChoice (p : Port) (s : State) (hm : s.ctrl.mode = .idle) (h : s.SwitchArmed) :
    (openingChoice p s).SwitchArmed := by
  have hp := pending_none_of_mode h (by simp [hm])
  unfold openingChoice
  split
  · exact armed_scheduleStart _ _ _ _ hp
  · split
    · exact armed_of_none hp
    · exact h

theorem armed_openingRechoice (p : Port) (s : State) (hm : s.ctrl.mode = .idle) (h : s.SwitchArmed) :
    (openingRechoice p s).SwitchArmed := by
  unfold openingRechoice
  split
  · exact armed_openingChoice p s hm h
  · exact h

theorem armed_withdrawStart (s : State) (h : s.SwitchArmed) : (withdrawStart s).SwitchArmed := by
  unfold withdrawStart
  split
  · exact h
  · next hs =>
    have hp := pending_none_of_scheduled h (by simp [hs])
    have h1 : ({ s with ctrl := { s.ctrl with scheduled := none } } : State).SwitchArmed := armed_of_none hp
    dsimp only
    split
    · next hm => exact armed_openingRechoice _ _ hm h1
    · exact h1
    all_goals
      split
      · exact h1
      · exact armed_setDegraded _ h1

theorem convertReversal_pending (s : State) : (convertReversal s).ctrl.pendingSwitch = s.ctrl.pendingSwitch := by
  unfold convertReversal
  split <;> rfl

theorem beginTransition_pending (target : Port) (cause : SwitchCause) (s : State) :
    (beginTransition target cause s).ctrl.pendingSwitch = s.ctrl.pendingSwitch := by
  unfold beginTransition
  dsimp only
  split
  · rw [convertReversal_pending]; rfl
  · rfl

theorem armed_takeScheduled (s : State) (h : s.SwitchArmed) : (takeScheduled s).SwitchArmed := by
  unfold takeScheduled
  split
  · exact h
  · next st hs =>
    have hp := pending_none_of_scheduled h (by simp [hs])
    have hb : (beginScheduled st s).SwitchArmed := by
      unfold beginScheduled
      split
      · exact armed_of_none (by rw [beginTransition_pending]; exact hp)
      · exact armed_withdrawStart s h
    split
    · split
      · exact hb
      · exact hb
      · unfold beginReversal
        split
        · exact armed_of_none hp
        · exact armed_withdrawStart s h
    · exact h

theorem armed_firePendingSwitch (r : PendingSwitch) (s : State) : (firePendingSwitch r s).SwitchArmed := by
  unfold firePendingSwitch
  split
  · exact armed_of_none (by rw [beginTransition_pending])
  · exact armed_cancelPendingSwitch s

theorem armed_answerScheduled (s : State) (h : s.SwitchArmed) : (answerScheduled s).SwitchArmed := by
  unfold answerScheduled
  dsimp only
  split
  · exact armed_takeScheduled _ h
  · exact h

theorem armed_answerNow (s : State) (h : s.SwitchArmed) : (answerNow s).SwitchArmed := by
  unfold answerNow
  dsimp only
  split
  · split
    · exact armed_firePendingSwitch _ _
    · exact h
  · exact h

theorem armed_controllerMark (m : MarkReport) (s : State) (h : s.SwitchArmed) : (controllerMark m s).SwitchArmed := by
  unfold controllerMark
  split
  · exact armed_firePendingSwitch _ _
  · exact h

/-- Table memory leaves the controller's record. -/
theorem adopt_ctrl (s : State) : (adopt s).ctrl = s.ctrl := by
  unfold adopt
  dsimp only
  split <;> rfl

theorem recordAdoption_ctrl (b s : State) : (recordAdoption b s).ctrl = s.ctrl := by
  obtain h | h := recordAdoption_eq b s <;> rw [h]
  exact offerEvent_ctrl _ _

theorem meetApplyTrigger_ctrl (s : State) : (meetApplyTrigger s).ctrl = s.ctrl := by
  unfold meetApplyTrigger
  split
  · rfl
  · split
    · rfl
    · exact adopt_ctrl s

theorem releaseDeferred_ctrl (s : State) : (releaseDeferred s).ctrl = s.ctrl := by
  unfold releaseDeferred
  split
  · exact adopt_ctrl s
  · rfl

theorem tableSpanStart_ctrl (s : State) : (tableSpanStart s).ctrl = s.ctrl := by
  unfold tableSpanStart
  dsimp only
  split
  · exact meetApplyTrigger_ctrl _
  · rfl

theorem tableMark_ctrl (m : MarkReport) (s : State) : (tableMark m s).ctrl = s.ctrl := by
  unfold tableMark
  split
  · exact meetApplyTrigger_ctrl _
  · rfl

/-- The alignment unit leaves the controller's record. -/
theorem recordClamp_ctrl (b : Bool) (k : Int) (s : State) : (recordClamp b k s).ctrl = s.ctrl := by
  unfold recordClamp
  split <;> rfl

theorem applyRecentre_ctrl (s : State) : (applyRecentre s).ctrl = s.ctrl := by
  unfold applyRecentre
  dsimp only
  split
  · rfl
  · rw [recordClamp_ctrl]; rfl

theorem applyOffAir_ctrl (s : State) : (applyOffAir s).ctrl = s.ctrl := by
  unfold applyOffAir
  split
  · rfl
  · dsimp only; rw [recordClamp_ctrl]; rfl

theorem endNotice_ctrl (s : State) : (endNotice s).ctrl = s.ctrl := by
  unfold endNotice
  dsimp only
  split
  · rw [applyOffAir_ctrl]
  · rfl

theorem abandonNotice_ctrl (s : State) : (abandonNotice s).ctrl = s.ctrl := by
  unfold abandonNotice
  dsimp only
  split
  · rw [applyRecentre_ctrl]
  · rfl

theorem acceptSkew_ctrl (k : Int) (s : State) : (acceptSkew k s).ctrl = s.ctrl := by
  unfold acceptSkew
  dsimp only
  split
  · rw [recordClamp_ctrl]; rfl
  · rw [recordClamp_ctrl]; rfl
  · rfl
  · rfl

theorem skewStep_ctrl (k : Int) (s : State) : (skewStep k s).ctrl = s.ctrl := by
  unfold skewStep
  dsimp only
  split
  · rw [acceptSkew_ctrl]
  · rfl

theorem gatherLead_ctrl (p : Port) (l : Option Int) (s : State) : (gatherLead p l s).ctrl = s.ctrl := by
  unfold gatherLead
  split
  · rfl
  · dsimp only
    split
    · rw [skewStep_ctrl]
    · rfl

theorem takeAlignmentReport_ctrl (p : Port) (r : WindowReport) (slot : Slot) (s : State) :
    (takeAlignmentReport p r slot s).ctrl = s.ctrl := by
  unfold takeAlignmentReport
  dsimp only
  split
  · unfold recentreOnAir
    dsimp only
    split
    · exact gatherLead_ctrl _ _ _
    · rw [recordClamp_ctrl]; exact gatherLead_ctrl _ _ _
  · exact gatherLead_ctrl _ _ _

theorem armed_of_ctrl {s t : State} (hc : t.ctrl = s.ctrl) (h : s.SwitchArmed) : t.SwitchArmed :=
  armed_of_eq (by rw [hc]) (by rw [hc]) (by rw [hc]) h

theorem armed_abandonOpening (x : Port) (s : State) (hp : s.ctrl.pendingSwitch = none) : (abandonOpening x s).SwitchArmed := by
  unfold abandonOpening
  dsimp only
  refine armed_openingRechoice _ _ ?_ (armed_of_none ?_)
  · rw [recordAdoption_ctrl, releaseDeferred_ctrl, abandonNotice_ctrl]; rfl
  · rw [recordAdoption_ctrl, releaseDeferred_ctrl, abandonNotice_ctrl]; exact hp

theorem armed_respondVerdict (p : Port) (old new : Verdict) (s : State) (h : s.SwitchArmed) :
    (respondVerdict p old new s).SwitchArmed := by
  unfold respondVerdict
  split
  · next hm =>
    split
    · split
      · exact armed_withdrawStart s h
      · exact h
    · split
      · exact armed_openingChoice p s hm h
      · exact h
  · next hm =>
    split
    · exact armed_abandonOpening _ s (pending_none_of_mode h (by simp [hm]))
    · exact h
  · split
    · split
      · unfold onAirFailed
        split
        · exact armed_resolveDegraded _ s h
        · exact armed_setDegraded s h
      · split
        · exact armed_of_eq rfl rfl rfl h
        · exact h
    · split
      · split
        · exact armed_withdrawStart s h
        · exact h
      · split
        · exact armed_resolveDegraded _ s h
        · exact h
  · next hm =>
    split
    · split
      · exact armed_withdrawStart s h
      · exact h
    · split
      · unfold incomingFailed
        split
        · exact h
        · split
          · exact armed_scheduleStart _ _ _ _ (pending_none_of_mode h (by simp [hm]))
          · exact armed_setDegraded s h
      · split
        · exact armed_of_eq rfl rfl rfl h
        · exact h

theorem armed_resetHoldoff (s : State) (h : s.SwitchArmed) : (resetHoldoff s).SwitchArmed := by
  have h1 : ({ s with ctrl := { s.ctrl with holdoff := 0 } } : State).SwitchArmed := armed_of_eq rfl rfl rfl h
  unfold resetHoldoff cancelRevert
  split
  · exact armed_cancelPendingSwitch _
  · exact h1

theorem armed_takeVerdictChange (p : Port) (old new : Verdict) (s : State) (h : s.SwitchArmed) :
    (takeVerdictChange p old new s).SwitchArmed := by
  unfold takeVerdictChange
  dsimp only
  split
  · exact armed_resetHoldoff _ (armed_respondVerdict p old new s h)
  · exact armed_respondVerdict p old new s h

theorem armed_takeNotice (p : Port) (v : Verdict) (s : State) (h : s.SwitchArmed) : (takeNotice p v s).SwitchArmed := by
  unfold takeNotice
  split
  · next hpref =>
    split
    · next hc =>
      obtain ⟨hc, -⟩ := hc
      simp only [revertConditions, Bool.and_eq_true, decide_eq_true_eq, Option.isNone_iff_eq_none] at hc
      dsimp only
      split
      · refine armed_createPendingSwitch _ _ ?_ hc.2
        dsimp only
        rw [hpref]
        exact hc.1.1
      · exact armed_of_eq rfl rfl rfl h
    · exact armed_resetHoldoff s h
  · exact h

theorem armed_endTransition (y : Port) (s : State) (hp : s.ctrl.pendingSwitch = none) : (endTransition y s).SwitchArmed := by
  unfold endTransition
  dsimp only
  have h1 : ∀ t : State, t.ctrl.pendingSwitch = none → (examineOnAir y t).SwitchArmed := by
    intro t ht
    unfold examineOnAir
    split
    · exact armed_of_none ht
    · split
      · exact armed_of_none ht
      · split
        · exact armed_scheduleFailover _ _
        · exact armed_setDegraded _ (armed_of_none ht)
  apply h1
  rw [convertReversal_pending]
  dsimp only
  rw [releaseDeferred_ctrl, endNotice_ctrl]
  exact hp

theorem armed_fadeEnd (s : State) (h : s.SwitchArmed) : (fadeEnd s).SwitchArmed := by
  unfold fadeEnd
  split
  · exact h
  · next y hy =>
    refine armed_endTransition y s (pending_none_of_mode h ?_)
    intro x hx
    rw [hx] at hy
    cases hy

theorem armed_decideSwitch (t : Port) (trigger : Trigger) (s : State) (h : s.SwitchArmed) :
    (decideSwitch t trigger s).1.SwitchArmed := by
  unfold decideSwitch
  split
  · exact h
  · next hne =>
    split
    · exact h
    · split
      · exact h
      · next hs =>
        have hs : s.ctrl.scheduled = none := by simpa using hs
        split
        · exact h
        · exact h
        · next x hm =>
          refine armed_createPendingSwitch _ _ ?_ hs
          obtain rfl | rfl := Port.eq_or_other t x
          · exact absurd hm hne
          · exact hm
        · next x hm =>
          split
          · exact armed_scheduleStart _ _ _ _ (pending_none_of_mode h (by simp [hm]))
          · exact h

theorem armed_setAuto (s : State) (h : s.SwitchArmed) : (setAuto s).SwitchArmed := by
  have h1 : ({ s with ctrl := { s.ctrl with auto := true } } : State).SwitchArmed := armed_of_eq rfl rfl rfl h
  unfold setAuto
  dsimp only
  split
  · split
    · exact armed_resolveDegraded _ _ h1
    · exact h1
  · exact h1

theorem armed_press (t : Port) (s : State) (h : s.SwitchArmed) : (press t s).SwitchArmed := by
  have h1 : (judgePress t s).1.SwitchArmed := by
    unfold judgePress
    split
    · exact h
    · split
      · exact h
      · next hne =>
        split
        · exact h
        · split
          · exact h
          · next hs =>
            have hs : s.ctrl.scheduled = none := by simpa using hs
            split
            · exact h
            · exact h
            · next x hm =>
              split
              · exact armed_scheduleStart _ _ _ _ (pending_none_of_mode h (by simp [hm]))
              · exact h
            · next x hm =>
              refine armed_createPendingSwitch _ _ ?_ hs
              obtain rfl | rfl := Port.eq_or_other t x
              · exact absurd hm hne
              · exact hm
  exact armed_of_eq rfl rfl rfl h1

end Sys2Proof.Machine
end

