-- ==== Sys2Proof/Laws/Window.lean ====
section
/-! SUPPORT. What a window close can do: the frame of the deframer's steps, of a window's reports, and of the whole close, with the bounds
that each keeps. -/

namespace Sys2Proof.Machine

/-! ### The deframer and the request queue -/

/-- What the lane's handling can change: the port's deframer, requests, WAIT flag and counters, and the event queue by offers. -/
structure LaneFrame (p : Port) (s t : State) : Prop where
  rest : t = { s with ports := t.ports, events := t.events }
  other : t.ports.get p.other = s.ports.get p.other
  port : t.ports.get p = { s.ports.get p with
    deframer := (t.ports.get p).deframer, requests := (t.ports.get p).requests, wait := (t.ports.get p).wait,
    counters := (t.ports.get p).counters }
  offered : s.Offered t

theorem LaneFrame.refl (p : Port) (s : State) : LaneFrame p s s := ⟨rfl, rfl, rfl, Offered.refl s⟩

theorem LaneFrame.trans {p : Port} {s t u : State} (h1 : LaneFrame p s t) (h2 : LaneFrame p t u) : LaneFrame p s u where
  rest := by rw [h2.rest, h1.rest]
  other := h2.other.trans h1.other
  port := by rw [h2.port, h1.port]
  offered := Offered.trans h1.offered h2.offered

theorem lane_setPort (p : Port) (s : State) (d : Deframer) (r : List (List Byte)) (w : Bool) (c : Counters) :
    LaneFrame p s (s.setPort p { s.ports.get p with deframer := d, requests := r, wait := w, counters := c }) :=
  ⟨rfl, by simp, by simp, Offered.refl _⟩

theorem lane_offerEvent (p : Port) (b : EventBody) (s : State) : LaneFrame p s (offerEvent b s) :=
  ⟨rfl, rfl, rfl, ⟨[⟨b, s.stamp⟩], rfl⟩⟩

theorem lane_raiseMgmtError (p : Port) (k : MgmtErrorKind) (s : State) : LaneFrame p s (raiseMgmtError p k s) := by
  unfold raiseMgmtError
  exact .trans (lane_setPort p s (s.ports.get p).deframer (s.ports.get p).requests (s.ports.get p).wait
    ((s.ports.get p).counters.bump k)) (lane_offerEvent p _ _)

theorem lane_offerMessage (p : Port) (m : List Byte) (s : State) : LaneFrame p s (offerMessage p m s) := by
  unfold offerMessage
  dsimp only
  split
  · exact lane_setPort p s (s.ports.get p).deframer _ _ (s.ports.get p).counters
  · exact lane_raiseMgmtError p _ s

theorem lane_applyOut (p : Port) (out : Option DeframerOut) (s : State) : LaneFrame p s (applyOut p out s) := by
  unfold applyOut
  split
  · exact .refl p s
  · exact lane_raiseMgmtError p _ s
  · exact lane_offerMessage p _ s

theorem lane_stepDeframer (p : Port) (f : Deframer → Deframer × Option DeframerOut) (s : State) :
    LaneFrame p s (stepDeframer p f s) := by
  unfold stepDeframer
  refine .trans ?_ (lane_applyOut p _ _)
  exact lane_setPort p s _ (s.ports.get p).requests (s.ports.get p).wait (s.ports.get p).counters

theorem lane_handLane (p : Port) (n : SpanNumber) (lane : List Byte) (s : State) : LaneFrame p s (handLane p n lane s) := by
  unfold handLane
  refine (lane_stepDeframer p (compareContinuity · n) s).trans ?_
  generalize stepDeframer p (compareContinuity · n) s = t
  induction lane generalizing t with
  | nil => exact .refl p t
  | cons b rest ih => exact (lane_stepDeframer p _ t).trans (ih _)

theorem lane_handWindowLane (p : Port) (rx : RxState) (o : WindowOutcome) (s : State) :
    LaneFrame p s (handWindowLane p rx o s) := by
  unfold handWindowLane
  split
  · split
    · exact lane_stepDeframer p _ s
    · split
      · exact lane_handLane p _ _ s
      · exact .refl p s
  · exact .refl p s

theorem lane_recordTransition (p : Port) (old new : RxState) (s : State) : LaneFrame p s (recordTransition p old new s) := by
  unfold recordTransition
  split
  · exact .refl p s
  · dsimp only
    split
    · exact (lane_offerEvent p _ s).trans (lane_stepDeframer p _ _)
    · exact lane_offerEvent p _ s

/-! ### Bounds of the deframer and the request queue (R121, R124, R125) -/

/-- The body and the age stay within what the deframer holds. -/
abbrev Deframer.Bounded (d : Deframer) : Prop := d.body.length ≤ 96 ∧ d.age ≤ 64

theorem bounded_emptied (d : Deframer) (m : DeframerMode) : (d.emptied m).Bounded := by
  simp [Deframer.emptied, Deframer.Bounded]

theorem bounded_appendByte (d : Deframer) (b : Byte) (h : d.Bounded) : (appendByte d b).1.Bounded := by
  unfold appendByte
  split
  · next hl => simp only [Deframer.Bounded, Config.messageBytes, List.length_append, List.length_singleton] at *; omega
  · exact bounded_emptied _ _

theorem bounded_closeBody (d : Deframer) : (closeBody d).1.Bounded := by
  unfold closeBody
  split <;> exact bounded_emptied _ _

theorem bounded_deframeByte (d : Deframer) (b : Byte) (h : d.Bounded) : (deframeByte d b).1.Bounded := by
  unfold deframeByte
  split
  · split
    · exact bounded_emptied _ _
    · exact h
  · split
    · exact bounded_closeBody d
    · split
      · exact h
      · exact bounded_appendByte d b h
  · split
    · exact bounded_appendByte d _ h
    · split
      · exact bounded_appendByte d _ h
      · split <;> exact bounded_emptied _ _

theorem bounded_indicateBroken (d : Deframer) : (indicateBroken d).1.Bounded := by
  simp [indicateBroken, breakLane, Deframer.emptied, Deframer.Bounded]

theorem bounded_compareContinuity (d : Deframer) (n : SpanNumber) (h : d.Bounded) : (compareContinuity d n).1.Bounded := by
  unfold compareContinuity
  dsimp only
  split
  · simp [breakLane, Deframer.emptied, Deframer.Bounded]
  · exact h

theorem bounded_ageStep (d : Deframer) (h : d.Bounded) : (ageStep d).1.Bounded := by
  unfold ageStep
  split
  · split
    · next ha => exact ⟨h.1, by simp only [Config.messageAge] at ha ⊢; omega⟩
    · exact bounded_emptied _ _
  · exact h

theorem bounded_raiseMgmtError (p q : Port) (k : MgmtErrorKind) (s : State) (h : (s.ports.get q).Bounded) :
    ((raiseMgmtError p k s).ports.get q).Bounded := by
  unfold raiseMgmtError
  dsimp only [offerEvent_ports, setPort_ports]
  obtain rfl | rfl := Port.eq_or_other p q
  · rw [PerPort.get_set_self]; exact h
  · rw [PerPort.get_set_other]; exact h

theorem bounded_offerMessage (p q : Port) (m : List Byte) (s : State) (h : (s.ports.get q).Bounded) :
    ((offerMessage p m s).ports.get q).Bounded := by
  unfold offerMessage
  dsimp only
  split
  · next hl =>
    dsimp only [setPort_ports]
    obtain rfl | rfl := Port.eq_or_other p q
    · rw [PerPort.get_set_self]
      simp only [Config.requestDepth] at hl
      exact ⟨h.1, h.2.1, h.2.2.1, h.2.2.2.1, by simp only [List.length_append, List.length_singleton]; omega, h.2.2.2.2.2⟩
    · rw [PerPort.get_set_other]; exact h
  · exact bounded_raiseMgmtError p q _ s h

theorem bounded_stepDeframer (p q : Port) (f : Deframer → Deframer × Option DeframerOut)
    (hf : ∀ d : Deframer, d.Bounded → (f d).1.Bounded) (s : State) (h : (s.ports.get q).Bounded) :
    ((stepDeframer p f s).ports.get q).Bounded := by
  have h1 : ((s.setDeframer p (f (s.ports.get p).deframer).1).ports.get q).Bounded := by
    unfold State.setDeframer
    dsimp only [setPort_ports]
    obtain rfl | rfl := Port.eq_or_other p q
    · rw [PerPort.get_set_self]
      have hd := hf _ ⟨h.2.2.1, h.2.2.2.1⟩
      exact ⟨h.1, h.2.1, hd.1, hd.2, h.2.2.2.2⟩
    · rw [PerPort.get_set_other]; exact h
  unfold stepDeframer applyOut
  dsimp only
  split
  · exact h1
  · exact bounded_raiseMgmtError p q _ _ h1
  · exact bounded_offerMessage p q _ _ h1

theorem bounded_handWindowLane (p q : Port) (rx : RxState) (o : WindowOutcome) (s : State) (h : (s.ports.get q).Bounded) :
    ((handWindowLane p rx o s).ports.get q).Bounded := by
  unfold handWindowLane
  split
  · split
    · exact bounded_stepDeframer p q _ (fun d _ => bounded_indicateBroken d) s h
    · split
      · next f _ =>
        unfold handLane
        have h1 := bounded_stepDeframer p q (compareContinuity · f.number) (fun d hd => bounded_compareContinuity d _ hd) s h
        generalize stepDeframer p (compareContinuity · f.number) s = t at h1
        induction f.lane generalizing t with
        | nil => exact h1
        | cons b rest ih => exact ih _ (bounded_stepDeframer p q _ (fun d hd => bounded_deframeByte d b hd) t h1)
      · exact h
  · exact h

theorem bounded_recordTransition (p q : Port) (old new : RxState) (s : State) (h : (s.ports.get q).Bounded) :
    ((recordTransition p old new s).ports.get q).Bounded := by
  unfold recordTransition
  split
  · exact h
  · dsimp only
    split
    · exact bounded_stepDeframer p q _ (fun d _ => bounded_indicateBroken d) _ h
    · exact h

theorem bounded_portAfter (t : Tables) (w : WindowIndex) (o : WindowOutcome) (x : ShowPort) (h : x.Bounded) :
    (portAfter t w o x).Bounded := by
  refine ⟨?_, ?_, h.2.2⟩
  · have := h.1
    simp only [portAfter, List.length_drop]
    omega
  · simpa [portAfter] using h.2.1

/-! ### The window close -/

/-- What a window close of port p can change before it is marked closed: the port, its health record, and all that the control
frame allows. -/
structure WindowFrame (p : Port) (s t : State) : Prop where
  pending : t.pending = s.pending
  run : t.run = s.run
  rate : t.rate = s.rate
  pins : t.pins = s.pins
  lines : t.lines = s.lines
  clock : t.clock = s.clock
  otherPort : t.ports.get p.other = s.ports.get p.other
  prog : t.prog = s.prog
  otherHealth : t.health.get p.other = s.health.get p.other
  pointer : t.pointer = s.pointer
  store : t.store = s.store
  sentReturn : t.sentReturn = s.sentReturn
  sentProgram : t.sentProgram = s.sentProgram
  free : t.free = s.free
  staged : t.tables.staged = s.tables.staged
  lock : t.tables.lock = s.tables.lock
  rows : t.mixer.rows = s.mixer.rows
  firstMark : t.mixer.firstMark = s.mixer.firstMark
  readDelays : t.mixer.delays = s.mixer.delays
  earlyMark : t.mixer.earlyMark = s.mixer.earlyMark
  debounce : t.ctrl.debounce = s.ctrl.debounce
  offered : s.Offered t
  live : s.LiveStep t
  delays : s.GuardOk → s.AlignDelaysOk → t.AlignDelaysOk

theorem WindowFrame.of_control {p : Port} {s t : State} (h : ControlFrame s t) : WindowFrame p s t :=
  ⟨h.pending, h.run, h.rate, h.pins, h.lines, h.clock, by rw [h.ports], h.prog, by rw [h.health], h.pointer, h.store,
    h.sentReturn, h.sentProgram, h.free, h.staged, h.lock, h.rows, h.firstMark, h.readDelays, h.earlyMark, h.debounce, h.offered,
    h.live, h.delays⟩

theorem WindowFrame.of_lane {p : Port} {s t : State} (h : LaneFrame p s t) : WindowFrame p s t := by
  have hr := h.rest
  refine ⟨?_, ?_, ?_, ?_, ?_, ?_, h.other, ?_, ?_, ?_, ?_, ?_, ?_, ?_, ?_, ?_, ?_, ?_, ?_, ?_, ?_, h.offered, .inl ?_,
    fun _ d => ?_⟩ <;> rw [hr]
  exact d

theorem WindowFrame.trans {p : Port} {s t u : State} (h1 : WindowFrame p s t) (h2 : WindowFrame p t u) : WindowFrame p s u where
  pending := h2.pending.trans h1.pending
  run := h2.run.trans h1.run
  rate := h2.rate.trans h1.rate
  pins := h2.pins.trans h1.pins
  lines := h2.lines.trans h1.lines
  clock := h2.clock.trans h1.clock
  otherPort := h2.otherPort.trans h1.otherPort
  prog := h2.prog.trans h1.prog
  otherHealth := h2.otherHealth.trans h1.otherHealth
  pointer := h2.pointer.trans h1.pointer
  store := h2.store.trans h1.store
  sentReturn := h2.sentReturn.trans h1.sentReturn
  sentProgram := h2.sentProgram.trans h1.sentProgram
  free := h2.free.trans h1.free
  staged := h2.staged.trans h1.staged
  lock := h2.lock.trans h1.lock
  rows := h2.rows.trans h1.rows
  firstMark := h2.firstMark.trans h1.firstMark
  readDelays := h2.readDelays.trans h1.readDelays
  earlyMark := h2.earlyMark.trans h1.earlyMark
  debounce := h2.debounce.trans h1.debounce
  offered := Offered.trans h1.offered h2.offered
  live := LiveStep.trans h1.live h2.live h1.staged h1.lock
  delays := fun g d => h2.delays (GuardOk.step h1.live h1.staged g) (h1.delays g d)

theorem window_setPort (p : Port) (x : ShowPort) (s : State) : WindowFrame p s (s.setPort p x) :=
  ⟨rfl, rfl, rfl, rfl, rfl, rfl, by simp, rfl, rfl, rfl, rfl, rfl, rfl, rfl, rfl, rfl, rfl, rfl, rfl, rfl, rfl, Offered.refl _,
    LiveStep.refl _, fun _ h => h⟩

theorem window_setHealth (p : Port) (h : HealthRecord) (s : State) : WindowFrame p s (s.setHealth p h) :=
  ⟨rfl, rfl, rfl, rfl, rfl, rfl, rfl, rfl, by simp, rfl, rfl, rfl, rfl, rfl, rfl, rfl, rfl, rfl, rfl, rfl, rfl, Offered.refl _,
    LiveStep.refl _, fun _ h => h⟩

theorem window_handVerdict (p : Port) (h : HealthRecord) (s : State) : WindowFrame p s (handVerdict p h s) := by
  unfold handVerdict
  dsimp only
  refine (window_setHealth p h s).trans (.of_control ?_)
  split
  · exact .refl _
  · exact .trans (frame_offerEvent _ _) (frame_takeVerdictChange _ _ _ _)

/-- The health records after a verdict is handed on: the new record, and the other port's as it was. -/
theorem handVerdict_health (p : Port) (h : HealthRecord) (s : State) : (handVerdict p h s).health = s.health.set p h := by
  unfold handVerdict
  dsimp only
  split
  · rfl
  · rw [(frame_takeVerdictChange _ _ _ _).health]
    rfl

theorem handVerdict_ports (p : Port) (h : HealthRecord) (s : State) : (handVerdict p h s).ports = s.ports := by
  unfold handVerdict
  dsimp only
  split
  · rfl
  · rw [(frame_takeVerdictChange _ _ _ _).ports]
    rfl

theorem window_evaluateWindow (p : Port) (r : WindowReport) (s : State) : WindowFrame p s (evaluateWindow p r s) :=
  (window_handVerdict p _ s).trans (.of_control (frame_takeNotice _ _ _))

theorem evaluateWindow_health (p : Port) (r : WindowReport) (s : State) :
    (evaluateWindow p r s).health = s.health.set p (evaluated s.live r (s.health.get p) (s.health.get p.other)) := by
  unfold evaluateWindow
  dsimp only
  rw [(frame_takeNotice _ _ _).health, handVerdict_health]

theorem evaluateWindow_ports (p : Port) (r : WindowReport) (s : State) : (evaluateWindow p r s).ports = s.ports := by
  unfold evaluateWindow
  dsimp only
  rw [(frame_takeNotice _ _ _).ports, handVerdict_ports]

/-- The health record of port p after its window report (R21, R22, R34). -/
def healthAfter (t : Tables) (r : WindowReport) (own other : HealthRecord) : HealthRecord :=
  if r.rx = .locked then evaluated t r (if r.changed then lockEntry own else own) other
  else if r.changed && own.lockView then forcedFailure r.rx own
  else own

theorem takeHealthReport_health (p : Port) (r : WindowReport) (s : State) :
    (takeHealthReport p r s).health = s.health.set p (healthAfter s.live r (s.health.get p) (s.health.get p.other)) := by
  unfold takeHealthReport healthAfter
  split <;> rename_i hrx
  · rw [evaluateWindow_health]
    cases r.changed <;> simp [State.live, State.setHealth, hrx]
  all_goals
    split
    · rw [handVerdict_health]; simp [hrx]
    · simp [hrx]

theorem takeHealthReport_ports (p : Port) (r : WindowReport) (s : State) : (takeHealthReport p r s).ports = s.ports := by
  unfold takeHealthReport
  split
  · rw [evaluateWindow_ports]
    split <;> rfl
  all_goals
    split
    · exact handVerdict_ports _ _ _
    · rfl

theorem window_takeHealthReport (p : Port) (r : WindowReport) (s : State) : WindowFrame p s (takeHealthReport p r s) := by
  unfold takeHealthReport
  split
  · split
    · exact (window_setHealth p _ s).trans (window_evaluateWindow p r _)
    · exact window_evaluateWindow p r s
  all_goals
    split
    · exact window_handVerdict p _ s
    · exact .of_control (.refl s)

theorem window_windowUpToAge (p : Port) (o : WindowOutcome) (s : State) : WindowFrame p s (windowUpToAge p o s) := by
  unfold windowUpToAge
  dsimp only
  refine .trans ?_ (.of_lane (lane_handWindowLane p _ _ _))
  refine .trans ?_ (.of_control (frame_takeAlignmentReport p _ _ _))
  refine .trans ?_ (window_takeHealthReport p _ _)
  exact .trans (window_setPort p _ s) (.of_lane (lane_recordTransition p _ _ _))

/-- The receiver, elastic store, expected number, last valid span, ring and reply queue of port p after its window: as steps 1 to 3
leave them. -/
structure ReceiverOf (x y : ShowPort) : Prop where
  store : x.store = y.store
  rx : x.rx = y.rx
  sync : x.sync = y.sync
  absentRun : x.absentRun = y.absentRun
  expected : x.expected = y.expected
  lastValid : x.lastValid = y.lastValid
  ring : x.ring = y.ring
  replies : x.replies = y.replies

theorem LaneFrame.receiver {p : Port} {s t : State} (h : LaneFrame p s t) : ReceiverOf (t.ports.get p) (s.ports.get p) := by
  have := h.port
  constructor <;> rw [this]

theorem ReceiverOf.trans {x y z : ShowPort} (h1 : ReceiverOf x y) (h2 : ReceiverOf y z) : ReceiverOf x z :=
  ⟨h1.store.trans h2.store, h1.rx.trans h2.rx, h1.sync.trans h2.sync, h1.absentRun.trans h2.absentRun,
    h1.expected.trans h2.expected, h1.lastValid.trans h2.lastValid, h1.ring.trans h2.ring, h1.replies.trans h2.replies⟩

theorem windowUpToAge_receiver (p : Port) (o : WindowOutcome) (s : State) :
    ReceiverOf ((windowUpToAge p o s).ports.get p) (portAfter s.live s.clock.window o (s.ports.get p)) := by
  unfold windowUpToAge
  dsimp only
  refine (lane_handWindowLane p _ _ _).receiver.trans ?_
  rw [(frame_takeAlignmentReport _ _ _ _).ports, takeHealthReport_ports]
  refine (lane_recordTransition p _ _ _).receiver.trans ?_
  simp only [setPort_ports, PerPort.get_set_self]
  exact ⟨rfl, rfl, rfl, rfl, rfl, rfl, rfl, rfl⟩

theorem windowUpToAge_health (p : Port) (o : WindowOutcome) (s : State) :
    (windowUpToAge p o s).health = s.health.set p (healthAfter s.live
      (reportFor s.live p s.clock.window o (s.ports.get p) (portAfter s.live s.clock.window o (s.ports.get p)))
      (s.health.get p) (s.health.get p.other)) := by
  unfold windowUpToAge
  dsimp only
  rw [(lane_handWindowLane p _ _ _).rest]
  dsimp only
  rw [(frame_takeAlignmentReport _ _ _ _).health, takeHealthReport_health]
  simp only [State.live]
  rw [(lane_recordTransition p _ _ _).rest]
  rfl

theorem bounded_windowUpToAge (p q : Port) (o : WindowOutcome) (s : State) (h : (s.ports.get q).Bounded) :
    ((windowUpToAge p o s).ports.get q).Bounded := by
  unfold windowUpToAge
  dsimp only
  refine bounded_handWindowLane p q _ _ _ ?_
  rw [(frame_takeAlignmentReport _ _ _ _).ports, takeHealthReport_ports]
  refine bounded_recordTransition p q _ _ _ ?_
  rw [setPort_ports]
  obtain rfl | rfl := Port.eq_or_other p q
  · rw [PerPort.get_set_self]; exact bounded_portAfter _ _ _ _ h
  · rw [PerPort.get_set_other]; exact h

/-- A window close, as the frame of what precedes it and the mark that the window is closed. -/
theorem closeWindow_frame (p : Port) (s : State) :
    ∃ t, WindowFrame p s t ∧ closeWindow p s = { t with clock := { t.clock with closed := t.clock.closed.set p true } } :=
  ⟨_, (window_windowUpToAge p _ s).trans (.of_lane (lane_stepDeframer p ageStep _)), rfl⟩

theorem closeWindow_receiver (p : Port) (s : State) :
    ReceiverOf ((closeWindow p s).ports.get p)
      (portAfter s.live s.clock.window (windowOutcome (s.ports.get p).store) (s.ports.get p)) :=
  (lane_stepDeframer p ageStep _).receiver.trans (windowUpToAge_receiver p _ s)

theorem closeWindow_health (p : Port) (s : State) :
    (closeWindow p s).health = s.health.set p (healthAfter s.live
      (reportFor s.live p s.clock.window (windowOutcome (s.ports.get p).store) (s.ports.get p)
        (portAfter s.live s.clock.window (windowOutcome (s.ports.get p).store) (s.ports.get p)))
      (s.health.get p) (s.health.get p.other)) := by
  unfold closeWindow
  dsimp only
  rw [(lane_stepDeframer p ageStep _).rest]
  exact windowUpToAge_health p _ s

theorem bounded_closeWindow (p q : Port) (s : State) (h : (s.ports.get q).Bounded) :
    ((closeWindow p s).ports.get q).Bounded :=
  bounded_stepDeframer p q ageStep bounded_ageStep _ (bounded_windowUpToAge p q _ s h)

end Sys2Proof.Machine
end

