-- ==== Sys2Proof/Laws/Engine.lean ====
section
/-! SUPPORT. What the management engine can do: the frame of a request's execution, of one served request and of the engine's run, the size
of a reply, and the bounds they keep. -/

namespace Sys2Proof.Machine

/-- What executing a request can change: the counters of a port, the controller's record, the answers owed by a span start, the staged
copy, the pending apply record, the lock record, the event queue, the store, and the count of free values. -/
structure VerbFrame (s t : State) : Prop where
  pending : t.pending = s.pending
  run : t.run = s.run
  rate : t.rate = s.rate
  pins : t.pins = s.pins
  lines : t.lines = s.lines
  clock : t.clock = s.clock
  port : ∀ p, t.ports.get p = { s.ports.get p with counters := (t.ports.get p).counters }
  prog : t.prog = s.prog
  health : t.health = s.health
  align : t.align = s.align
  pointer : t.pointer = s.pointer
  sentReturn : t.sentReturn = s.sentReturn
  sentProgram : t.sentProgram = s.sentProgram
  live : t.tables.live = s.tables.live
  rows : t.mixer.rows = s.mixer.rows
  firstMark : t.mixer.firstMark = s.mixer.firstMark
  readDelays : t.mixer.delays = s.mixer.delays
  earlyMark : t.mixer.earlyMark = s.mixer.earlyMark
  mode : t.ctrl.mode = s.ctrl.mode
  q : t.ctrl.q = s.ctrl.q
  len : t.ctrl.len = s.ctrl.len
  debounce : t.ctrl.debounce = s.ctrl.debounce

theorem VerbFrame.refl (s : State) : VerbFrame s s :=
  ⟨rfl, rfl, rfl, rfl, rfl, rfl, fun _ => rfl, rfl, rfl, rfl, rfl, rfl, rfl, rfl, rfl, rfl, rfl, rfl, rfl, rfl, rfl, rfl⟩

/-- What a switch decision or a change of AUTO does to the controller: the mode and the fade stand, the alignment record and the
tables are not touched. -/
structure AskFrame (s t : State) : Prop where
  control : ControlFrame s t
  align : t.align = s.align
  tables : t.tables = s.tables
  mode : t.ctrl.mode = s.ctrl.mode
  q : t.ctrl.q = s.ctrl.q
  len : t.ctrl.len = s.ctrl.len

theorem AskFrame.verb {s t : State} (h : AskFrame s t) : VerbFrame s t :=
  ⟨h.control.pending, h.control.run, h.control.rate, h.control.pins, h.control.lines, h.control.clock,
    fun p => by rw [h.control.ports], h.control.prog, h.control.health, h.align, h.control.pointer, h.control.sentReturn,
    h.control.sentProgram, by rw [h.tables], h.control.rows, h.control.firstMark, h.control.readDelays, h.control.earlyMark,
    h.mode, h.q, h.len, h.control.debounce⟩

theorem AskFrame.refl (s : State) : AskFrame s s := ⟨.refl s, rfl, rfl, rfl, rfl, rfl⟩

theorem ask_createPendingSwitch (r : PendingSwitch) (s : State) : AskFrame s (createPendingSwitch r s) := by
  refine ⟨frame_createPendingSwitch r s, ?_, ?_, ?_, ?_, ?_⟩ <;>
    (unfold createPendingSwitch cancelPendingSwitch; dsimp only; split <;> rfl)

theorem ask_scheduleStart (a : StartAction) (p : Port) (c : SwitchCause) (s : State) : AskFrame s (scheduleStart a p c s) :=
  ⟨frame_scheduleStart a p c s, rfl, rfl, rfl, rfl, rfl⟩

theorem ask_resolveDegraded (y : Port) (s : State) : AskFrame s (resolveDegraded y s) := by
  refine ⟨frame_resolveDegraded y s, ?_, ?_, ?_, ?_, ?_⟩ <;>
    (unfold resolveDegraded scheduleFailover cancelPendingSwitch; split <;> [rfl; (split <;> rfl)])

theorem ask_decideSwitch (t : Port) (trigger : Trigger) (s : State) : AskFrame s (decideSwitch t trigger s).1 := by
  unfold decideSwitch
  split
  · exact .refl s
  · split
    · exact .refl s
    · split
      · exact .refl s
      · split
        · exact .refl s
        · exact .refl s
        · exact ask_createPendingSwitch _ _
        · split
          · exact ask_scheduleStart _ _ _ _
          · exact .refl s

theorem verb_setAuto (s : State) : VerbFrame s (setAuto s) := by
  have h1 : AskFrame s ({ s with ctrl := { s.ctrl with auto := true } } : State) :=
    ⟨frame_ctrl s _ rfl, rfl, rfl, rfl, rfl, rfl⟩
  unfold setAuto
  dsimp only
  split
  · split
    · have h2 := ask_resolveDegraded (Port.other (by assumption)) ({ s with ctrl := { s.ctrl with auto := true } } : State)
      exact AskFrame.verb ⟨h1.control.trans h2.control, h2.align, h2.tables, h2.mode, h2.q, h2.len⟩
    · exact h1.verb
  · exact h1.verb

theorem verb_setCounters (s : State) (p : Port) (c : Counters) :
    VerbFrame s (s.setPort p { s.ports.get p with counters := c }) := by
  refine ⟨rfl, rfl, rfl, rfl, rfl, rfl, fun q => ?_, rfl, rfl, rfl, rfl, rfl, rfl, rfl, rfl, rfl, rfl, rfl, rfl, rfl, rfl, rfl⟩
  obtain rfl | rfl := Port.eq_or_other p q
  · simp
  · simp

/-- What holds of both branches holds of a conditional. -/
theorem ite_of {α : Type} {P : α → Prop} {c : Prop} [Decidable c] {x y : α} (hx : P x) (hy : P y) : P (if c then x else y) := by
  split
  · exact hx
  · exact hy

/-- What holds of every verb's answer, and of the refusal of an unknown verb, holds of the answer to a request (R127). -/
theorem runVerb_of {P : Answer → Prop} (verb : Byte) (o : List Byte) (s : State) (h1 : P (verbState o s)) (h2 : P (verbRead o s))
    (h3 : P (verbWrite o s)) (h4 : P (verbApply o s)) (h5 : P (verbDiscard o s)) (h6 : P (verbSwitch o s)) (h7 : P (verbAuto o s))
    (h8 : P (verbLock o s)) (h9 : P (verbEvents o s)) (h10 : P (verbFlush o s)) (h11 : P (verbSave o s))
    (h12 : P (verbCounters o s)) (h13 : P (verbIdent o s)) (h14 : P (refuse s .badVerb)) : P (runVerb verb o s) :=
  ite_of h1 (ite_of h2 (ite_of h3 (ite_of h4 (ite_of h5 (ite_of h6 (ite_of h7 (ite_of h8 (ite_of h9 (ite_of h10 (ite_of h11
    (ite_of h12 (ite_of h13 h14))))))))))))

/-- Executing a request stays within the verb frame. -/
theorem verb_runVerb (verb : Byte) (operands : List Byte) (s : State) : VerbFrame s (runVerb verb operands s).state := by
  have hr := VerbFrame.refl s
  refine runVerb_of (P := fun a => VerbFrame s a.state) verb operands s ?_ ?_ ?_ ?_ ?_ ?_ ?_ ?_ ?_ ?_ ?_ ?_ ?_ ?_
  · unfold verbState; split
    · exact ⟨rfl, rfl, rfl, rfl, rfl, rfl, fun _ => rfl, rfl, rfl, rfl, rfl, rfl, rfl, rfl, rfl, rfl, rfl, rfl, rfl, rfl, rfl, rfl⟩
    · exact hr
  · unfold verbRead; split
    · unfold doRead; split
      · exact hr
      · split
        · exact hr
        · split <;> exact hr
    · exact hr
  · unfold verbWrite; split
    · unfold doWrite; split
      · exact hr
      · dsimp only
        split
        · exact hr
        · split
          · exact hr
          · split
            · exact hr
            · split
              · exact hr
              · exact ⟨rfl, rfl, rfl, rfl, rfl, rfl, fun _ => rfl, rfl, rfl, rfl, rfl, rfl, rfl, rfl, rfl, rfl, rfl, rfl, rfl, rfl,
                  rfl, rfl⟩
    · exact hr
  · unfold verbApply; split
    · unfold doApply; split
      · exact hr
      · split
        · exact hr
        · exact ⟨rfl, rfl, rfl, rfl, rfl, rfl, fun _ => rfl, rfl, rfl, rfl, rfl, rfl, rfl, rfl, rfl, rfl, rfl, rfl, rfl, rfl, rfl,
            rfl⟩
    · exact hr
  · unfold verbDiscard; split
    · exact ⟨rfl, rfl, rfl, rfl, rfl, rfl, fun _ => rfl, rfl, rfl, rfl, rfl, rfl, rfl, rfl, rfl, rfl, rfl, rfl, rfl, rfl, rfl, rfl⟩
    · exact hr
  · unfold verbSwitch; split
    · unfold doSwitch; split
      · exact (ask_decideSwitch _ _ s).verb
      · exact hr
    · exact hr
  · unfold verbAuto; split
    · unfold doAuto; split
      · exact hr
      · split
        · exact hr
        · split
          · exact verb_setAuto s
          · split
            · exact hr
            · exact ⟨rfl, rfl, rfl, rfl, rfl, rfl, fun _ => rfl, rfl, rfl, rfl, rfl, rfl, rfl, rfl, rfl, rfl, rfl, rfl, rfl, rfl, rfl,
            rfl⟩
    · exact hr
  · unfold verbLock; split
    · unfold doLock; split
      · exact hr
      · split
        · exact hr
        · exact ⟨rfl, rfl, rfl, rfl, rfl, rfl, fun _ => rfl, rfl, rfl, rfl, rfl, rfl, rfl, rfl, rfl, rfl, rfl, rfl, rfl, rfl, rfl,
            rfl⟩
    · exact hr
  · unfold verbEvents; split
    · exact ⟨rfl, rfl, rfl, rfl, rfl, rfl, fun _ => rfl, rfl, rfl, rfl, rfl, rfl, rfl, rfl, rfl, rfl, rfl, rfl, rfl, rfl, rfl, rfl⟩
    · exact hr
  · unfold verbFlush; split
    · exact ⟨rfl, rfl, rfl, rfl, rfl, rfl, fun _ => rfl, rfl, rfl, rfl, rfl, rfl, rfl, rfl, rfl, rfl, rfl, rfl, rfl, rfl, rfl, rfl⟩
    · exact hr
  · unfold verbSave; split
    · unfold doSave; split
      · exact hr
      · exact ⟨rfl, rfl, rfl, rfl, rfl, rfl, fun _ => rfl, rfl, rfl, rfl, rfl, rfl, rfl, rfl, rfl, rfl, rfl, rfl, rfl, rfl, rfl, rfl⟩
    · exact hr
  · unfold verbCounters; split
    · unfold doCounters; split
      · dsimp only; split
        · exact verb_setCounters s _ _
        · exact hr
      · exact hr
    · exact hr
  · unfold verbIdent; split <;> exact hr
  · exact hr

/-! ### The engine -/

/-- What the engine can change by serving requests: as a request's execution, and besides the queues, WAIT and the reply queues of the
ports, and the pointer. -/
structure EngineFrame (s t : State) : Prop where
  pending : t.pending = s.pending
  run : t.run = s.run
  rate : t.rate = s.rate
  pins : t.pins = s.pins
  lines : t.lines = s.lines
  clock : t.clock = s.clock
  port : ∀ p, t.ports.get p = { s.ports.get p with
    counters := (t.ports.get p).counters, requests := (t.ports.get p).requests, wait := (t.ports.get p).wait,
    replies := (t.ports.get p).replies }
  prog : t.prog = s.prog
  health : t.health = s.health
  align : t.align = s.align
  sentReturn : t.sentReturn = s.sentReturn
  sentProgram : t.sentProgram = s.sentProgram
  live : t.tables.live = s.tables.live
  rows : t.mixer.rows = s.mixer.rows
  firstMark : t.mixer.firstMark = s.mixer.firstMark
  readDelays : t.mixer.delays = s.mixer.delays
  earlyMark : t.mixer.earlyMark = s.mixer.earlyMark
  mode : t.ctrl.mode = s.ctrl.mode
  q : t.ctrl.q = s.ctrl.q
  len : t.ctrl.len = s.ctrl.len
  debounce : t.ctrl.debounce = s.ctrl.debounce

theorem EngineFrame.refl (s : State) : EngineFrame s s :=
  ⟨rfl, rfl, rfl, rfl, rfl, rfl, fun _ => rfl, rfl, rfl, rfl, rfl, rfl, rfl, rfl, rfl, rfl, rfl, rfl, rfl, rfl, rfl⟩

theorem VerbFrame.engine {s t : State} (h : VerbFrame s t) : EngineFrame s t :=
  ⟨h.pending, h.run, h.rate, h.pins, h.lines, h.clock, fun p => by rw [h.port p], h.prog, h.health, h.align, h.sentReturn,
    h.sentProgram, h.live, h.rows, h.firstMark, h.readDelays, h.earlyMark, h.mode, h.q, h.len, h.debounce⟩

theorem EngineFrame.trans {s t u : State} (h1 : EngineFrame s t) (h2 : EngineFrame t u) : EngineFrame s u where
  pending := h2.pending.trans h1.pending
  run := h2.run.trans h1.run
  rate := h2.rate.trans h1.rate
  pins := h2.pins.trans h1.pins
  lines := h2.lines.trans h1.lines
  clock := h2.clock.trans h1.clock
  port := fun p => by rw [h2.port p, h1.port p]
  prog := h2.prog.trans h1.prog
  health := h2.health.trans h1.health
  align := h2.align.trans h1.align
  sentReturn := h2.sentReturn.trans h1.sentReturn
  sentProgram := h2.sentProgram.trans h1.sentProgram
  live := h2.live.trans h1.live
  rows := h2.rows.trans h1.rows
  firstMark := h2.firstMark.trans h1.firstMark
  readDelays := h2.readDelays.trans h1.readDelays
  earlyMark := h2.earlyMark.trans h1.earlyMark
  mode := h2.mode.trans h1.mode
  q := h2.q.trans h1.q
  len := h2.len.trans h1.len
  debounce := h2.debounce.trans h1.debounce

theorem engine_setPort (s : State) (p : Port) (r : List (List Byte)) (w : Bool) (b : List Byte) :
    EngineFrame s (s.setPort p { s.ports.get p with requests := r, wait := w, replies := b }) := by
  refine ⟨rfl, rfl, rfl, rfl, rfl, rfl, fun q => ?_, rfl, rfl, rfl, rfl, rfl, rfl, rfl, rfl, rfl, rfl, rfl, rfl, rfl, rfl⟩
  obtain rfl | rfl := Port.eq_or_other p q
  · simp
  · simp

theorem engine_placeReply (p : Port) (reply : List Byte) (s : State) : EngineFrame s (placeReply p reply s) :=
  engine_setPort s p (s.ports.get p).requests (s.ports.get p).wait _

theorem engine_takeRequest (p : Port) (s : State) : EngineFrame s (takeRequest p s) := by
  have h := engine_setPort s p ((s.ports.get p).requests.drop 1)
    (waitAfterTake (s.ports.get p).wait ((s.ports.get p).requests.length - 1)) (s.ports.get p).replies
  exact ⟨h.pending, h.run, h.rate, h.pins, h.lines, h.clock, h.port, h.prog, h.health, h.align, h.sentReturn, h.sentProgram, h.live,
    h.rows, h.firstMark, h.readDelays, h.earlyMark, h.mode, h.q, h.len, h.debounce⟩

theorem engine_executeRequest (p : Port) (m : List Byte) (s : State) : EngineFrame s (executeRequest p m s) := by
  unfold executeRequest
  split
  · exact (verb_runVerb _ _ s).engine.trans (engine_placeReply _ _ _)
  · exact .refl s

theorem engine_serveRequest (p : Port) (s : State) : EngineFrame s (serveRequest p s) :=
  (engine_takeRequest p s).trans (engine_executeRequest p _ _)

theorem engine_serveUpTo (n : Nat) (s : State) : EngineFrame s (serveUpTo n s) := by
  induction n generalizing s with
  | zero => exact .refl s
  | succ n ih =>
    unfold serveUpTo
    split
    · exact .refl s
    · exact (engine_serveRequest _ s).trans (ih _)

theorem engine_runEngine (s : State) : EngineFrame s (runEngine s) := engine_serveUpTo _ s

/-- With no request waiting the engine does nothing. -/
theorem runEngine_of_empty {s : State} (h : s.waitingRequests = 0) : runEngine s = s := by
  simp [runEngine, h, serveUpTo]

/-! ### The size of a reply (R128) -/

theorem length_bytesOfNat (k n : Nat) : (bytesOfNat k n).length = k := by
  induction k generalizing n with
  | zero => rfl
  | succ k ih => simp [bytesOfNat, ih]

theorem length_detail (b : EventBody) : b.detail.length = b.detailLength := by
  cases b <;> simp [EventBody.detail, EventBody.detailLength, length_bytesOfNat]

theorem length_record (r : EventRecord) : r.bytes.length = r.size := by
  simp [EventRecord.bytes, EventRecord.size, length_bytesOfNat, length_detail]
  omega

theorem length_taken (n room : Nat) (l : List EventRecord) :
    ((takeRecords n room l).1.flatMap EventRecord.bytes).length ≤ room := by
  induction l generalizing n room with
  | nil => simp [takeRecords]
  | cons r rest ih =>
    unfold takeRecords
    split
    · next h =>
      have := ih (n - 1) (room - r.size)
      simp only [List.flatMap_cons, List.length_append, length_record]
      omega
    · simp

theorem length_indicesFrom (t : TableName) (i n : Nat) : (indicesFrom t i n).length = n := by
  induction n generalizing i with
  | zero => rfl
  | succ n ih => simp [indicesFrom, ih]

theorem length_tableEntryBytes (c : Tables) (t : TableName) (i : Nat) : (tableEntryBytes c t i).length = t.entryBytes := by
  cases t <;> simp [tableEntryBytes, routeEntryBytes, TableName.entryBytes, length_bytesOfNat]

theorem length_entries (c : Tables) (t : TableName) (l : List Nat) :
    (l.flatMap (tableEntryBytes c t)).length = l.length * t.entryBytes := by
  induction l with
  | nil => simp
  | cons i rest ih => simp only [List.flatMap_cons, List.length_append, length_tableEntryBytes, ih, List.length_cons]; ring

/-- A payload holds at most 91 bytes (R128). -/
theorem length_payload (verb : Byte) (operands : List Byte) (s : State) : (runVerb verb operands s).payload.length ≤ 91 := by
  have h0 : ∀ st : Status, (refuse s st).payload.length ≤ 91 := fun _ => Nat.zero_le _
  have ha : ∀ (t : State) (st : Status), (answerWith t st).payload.length ≤ 91 := fun _ _ => Nat.zero_le _
  refine runVerb_of (P := fun a => a.payload.length ≤ 91) verb operands s ?_ ?_ ?_ ?_ ?_ ?_ ?_ ?_ ?_ ?_ ?_ ?_ ?_ ?_
  · unfold verbState; split
    · simp only [doState, statePayload, List.length_append, List.length_cons, List.length_nil, length_bytesOfNat, portBytes,
        skewBytes]
      have h1 : ∀ x, (pendingSwitchBytes x s.ctrl.pendingSwitch).length = 4 := by
        intro x; unfold pendingSwitchBytes; split <;> rfl
      have h2 : ∀ x, (applyRecordBytes x s.tables.apply).length = 3 := by
        intro x; unfold applyRecordBytes; split <;> rfl
      rw [h1, h2]
      omega
    · exact h0 _
  · unfold verbRead; split
    · unfold doRead; split
      · exact h0 _
      · next t _ =>
        split
        · exact h0 _
        · split
          · exact h0 _
          · simp only [readEntries, List.length_cons, length_entries, length_indicesFrom]
            cases t <;> simp only [TableName.maxEntries, TableName.entryBytes] <;> omega
    · exact h0 _
  · unfold verbWrite; split
    · unfold doWrite; split
      · exact h0 _
      · dsimp only
        split
        · exact h0 _
        · split
          · exact h0 _
          · split
            · exact h0 _
            · split
              · exact h0 _
              · exact ha _ _
    · exact h0 _
  · unfold verbApply; split
    · unfold doApply; split
      · exact h0 _
      · split
        · exact h0 _
        · exact ha _ _
    · exact h0 _
  · unfold verbDiscard; split
    · exact ha _ _
    · exact h0 _
  · unfold verbSwitch; split
    · unfold doSwitch; split
      · exact ha _ _
      · exact h0 _
    · exact h0 _
  · unfold verbAuto; split
    · unfold doAuto; split
      · exact h0 _
      · split
        · exact ha _ _
        · split
          · exact ha _ _
          · split
            · exact h0 _
            · exact ha _ _
    · exact h0 _
  · unfold verbLock; split
    · unfold doLock; split
      · exact h0 _
      · split
        · exact h0 _
        · exact ha _ _
    · exact h0 _
  · unfold verbEvents; split
    · simp only [doEvents, List.length_append, List.length_cons, List.length_nil]
      have := length_taken (if (by assumption : Byte) = 0 then 1 else (by assumption : Byte).toNat) Config.eventsReplyBytes
        s.events.records
      simp only [Config.eventsReplyBytes] at *
      omega
    · exact h0 _
  · unfold verbFlush; split
    · exact ha _ _
    · exact h0 _
  · unfold verbSave; split
    · unfold doSave; split
      · exact h0 _
      · exact ha _ _
    · exact h0 _
  · unfold verbCounters; split
    · unfold doCounters; split
      · simp [counterBytes, length_bytesOfNat]
      · exact h0 _
    · exact h0 _
  · unfold verbIdent; split
    · simp [doIdent, length_bytesOfNat]
    · exact h0 _
  · exact h0 _

theorem length_frameMessage (m : List Byte) : (frameMessage m).length ≤ 2 * m.length + 2 := by
  have h : (m.flatMap escapeByte).length ≤ 2 * m.length := by
    induction m with
    | nil => simp
    | cons b rest ih =>
      have hb : (escapeByte b).length ≤ 2 := by
        unfold escapeByte
        split
        · decide
        · split
          · decide
          · simp
      simp only [List.flatMap_cons, List.length_append, List.length_cons]
      omega
  simp only [frameMessage, List.length_append, List.length_cons, List.length_nil]
  omega

/-- A framed reply takes at most the 194 bytes the engine reserves (R126, R128). -/
theorem length_reply (s : State) (tag verb : Byte) (operands : List Byte) :
    (frameMessage (replyBytes tag verb (runVerb verb operands s).status (stampBytes s) (runVerb verb operands s).payload)).length
      ≤ 194 := by
  refine le_trans (length_frameMessage _) ?_
  have := length_payload verb operands s
  simp only [replyBytes, stampBytes, List.length_append, List.length_cons, List.length_nil, length_bytesOfNat]
  omega

/-! ### Bounds the engine keeps -/

theorem nextTake_eligible {s : State} {p : Port} (h : s.nextTake = some p) : s.eligible p = true := by
  unfold State.nextTake at h
  split at h
  · simp_all
  · split at h
    · simp_all
    · cases h

theorem bounded_verb {s t : State} (hf : VerbFrame s t) (q : Port) (h : (s.ports.get q).Bounded) : (t.ports.get q).Bounded := by
  rw [hf.port q]
  exact h

theorem bounded_serveRequest (p q : Port) (s : State) (he : s.eligible p = true) (h : (s.ports.get q).Bounded) :
    ((serveRequest p s).ports.get q).Bounded := by
  have hfree := of_decide_eq_true (Bool.and_eq_true_iff.mp he).2
  simp only [Config.replyReserve, Config.replyBytes] at hfree
  have ht : ((takeRequest p s).ports.get q).Bounded ∧ ((takeRequest p s).ports.get q).replies = (s.ports.get q).replies := by
    unfold takeRequest
    dsimp only [setPort_ports]
    obtain rfl | rfl := Port.eq_or_other p q
    · rw [PerPort.get_set_self]
      exact ⟨⟨h.1, h.2.1, h.2.2.1, h.2.2.2.1, by have := h.2.2.2.2.1; simp only [List.length_drop]; omega, h.2.2.2.2.2⟩, rfl⟩
    · rw [PerPort.get_set_other]; exact ⟨h, rfl⟩
  have hp : ((takeRequest p s).ports.get p).replies = (s.ports.get p).replies := by
    simp [takeRequest]
  unfold serveRequest executeRequest
  split
  · next tag verb operands _ =>
    have hv := verb_runVerb verb operands (takeRequest p s)
    have hq := bounded_verb hv q ht.1
    have hr := length_reply (takeRequest p s) tag verb operands
    unfold placeReply
    dsimp only [setPort_ports]
    obtain rfl | rfl := Port.eq_or_other p q
    · rw [PerPort.get_set_self]
      refine ⟨hq.1, hq.2.1, hq.2.2.1, hq.2.2.2.1, hq.2.2.2.2.1, ?_⟩
      have hlen : ((runVerb verb operands (takeRequest q s)).state.ports.get q).replies = (s.ports.get q).replies := by
        rw [hv.port q]
        exact hp
      dsimp only
      rw [List.length_append, hlen]
      omega
    · rw [PerPort.get_set_other]; exact hq
  · exact ht.1

theorem bounded_runEngine (q : Port) (s : State) (h : (s.ports.get q).Bounded) : ((runEngine s).ports.get q).Bounded := by
  have : ∀ (n : Nat) (t : State), (t.ports.get q).Bounded → ((serveUpTo n t).ports.get q).Bounded := by
    intro n
    induction n with
    | zero => exact fun _ h => h
    | succ n ih =>
      intro t ht
      unfold serveUpTo
      split
      · exact ht
      · next p hp => exact ih _ (bounded_serveRequest p q t (nextTake_eligible hp) ht)
  exact this _ _ h

/-! ### A request that is taken at once -/

/-- With a period's samples made, or none begun, a request is taken in the state as it stands. -/
theorem atRequest_of_made {s : State} (h : s.clock.begun = true → s.clock.made = 32) : atRequest s = s := by
  unfold atRequest finishSamples
  split
  · next hb => rw [if_neg (by simp [h hb, Config.spanLength])]
  · rfl

/-- The state in which a request that completes at an idle engine is executed: port p's queue empty again, WAIT clear and the pointer on
the other port (R125, R126). -/
def State.taking (s : State) (p : Port) : State :=
  { s.setPort p { s.ports.get p with requests := [], wait := false } with pointer := p.other }

/-- A request that completes while the engine is idle and the reply queue has room is executed there and then (R126). -/
theorem submitRequest_of_canServe {s : State} {p : Port} (h : s.CanServe p) (tag verb : Byte) (operands : List Byte)
    (hl : operands.length ≤ 94) :
    submitRequest p (tag :: verb :: operands) s
      = placeReply p (replyBytes tag verb (runVerb verb operands (s.taking p)).status (stampBytes (s.taking p))
          (runVerb verb operands (s.taking p)).payload) (runVerb verb operands (s.taking p)).state := by
  obtain ⟨-, hm, ⟨ha, hb⟩, hr⟩ := h
  have hp : (s.ports.get p).requests = [] := by cases p <;> assumption
  have ho : (s.ports.get p.other).requests = [] := by cases p <;> assumption
  have hlen : (tag :: verb :: operands).length ≤ Config.messageBytes := by
    simp only [List.length_cons, Config.messageBytes]; omega
  have hoff : offerMessage p (tag :: verb :: operands) s
      = s.setPort p { s.ports.get p with requests := [tag :: verb :: operands], wait := (s.ports.get p).wait } := by
    simp [offerMessage, hp, Config.requestDepth, waitAfterEntry]
  unfold submitRequest
  rw [if_pos hlen, atRequest_of_made hm, hoff]
  generalize hs1 : s.setPort p { s.ports.get p with requests := [tag :: verb :: operands], wait := (s.ports.get p).wait } = s1
  have hq : (s1.ports.get p).requests = [tag :: verb :: operands] := by subst hs1; simp
  have hqo : (s1.ports.get p.other).requests = [] := by subst hs1; simpa using ho
  have hrep : (s1.ports.get p).replies = (s.ports.get p).replies := by subst hs1; simp
  have hw : s1.waitingRequests = 1 := by
    unfold State.waitingRequests
    cases p <;> simp_all [Port.other]
  have hep : s1.eligible p = true := by
    simp [State.eligible, hq, hrep, Config.replyReserve, Config.replyBytes, hr]
  have heo : s1.eligible p.other = false := by simp [State.eligible, hqo]
  have ht : s1.nextTake = some p := by
    unfold State.nextTake
    obtain e | e := Port.eq_or_other p s1.pointer <;> rw [e]
    · rw [if_pos hep]
    · rw [heo, Port.other_other, hep]; simp
  have htake : takeRequest p s1 = s.taking p := by
    subst hs1
    simp [takeRequest, State.taking, State.setPort, waitAfterTake]
  unfold runEngine
  rw [hw]
  unfold serveUpTo
  rw [ht]
  dsimp only [serveUpTo]
  unfold serveRequest
  rw [htake, hq]
  rfl

theorem armed_runVerb (verb : Byte) (operands : List Byte) (s : State) (h : s.SwitchArmed) :
    (runVerb verb operands s).state.SwitchArmed := by
  refine runVerb_of (P := fun a => a.state.SwitchArmed) verb operands s ?_ ?_ ?_ ?_ ?_ ?_ ?_ ?_ ?_ ?_ ?_ ?_ ?_ ?_
  · unfold verbState; split <;> exact h
  · unfold verbRead; split
    · unfold doRead; split
      · exact h
      · split
        · exact h
        · split <;> exact h
    · exact h
  · unfold verbWrite; split
    · unfold doWrite; split
      · exact h
      · dsimp only
        split
        · exact h
        · split
          · exact h
          · split
            · exact h
            · split <;> exact h
    · exact h
  · unfold verbApply; split
    · unfold doApply; split
      · exact h
      · split <;> exact h
    · exact h
  · unfold verbDiscard; split <;> exact h
  · unfold verbSwitch; split
    · unfold doSwitch; split
      · exact armed_decideSwitch _ _ s h
      · exact h
    · exact h
  · unfold verbAuto; split
    · unfold doAuto; split
      · exact h
      · split
        · exact h
        · split
          · exact armed_setAuto s h
          · split <;> exact h
    · exact h
  · unfold verbLock; split
    · unfold doLock; split
      · exact h
      · split <;> exact h
    · exact h
  · unfold verbEvents; split <;> exact h
  · unfold verbFlush; split <;> exact h
  · unfold verbSave; split
    · unfold doSave; split <;> exact h
    · exact h
  · unfold verbCounters; split
    · unfold doCounters; split
      · dsimp only; split <;> exact h
      · exact h
    · exact h
  · unfold verbIdent; split <;> exact h
  · exact h

theorem armed_runEngine (s : State) (h : s.SwitchArmed) : (runEngine s).SwitchArmed := by
  have : ∀ (n : Nat) (t : State), t.SwitchArmed → (serveUpTo n t).SwitchArmed := by
    intro n
    induction n with
    | zero => exact fun _ h => h
    | succ n ih =>
      intro t ht
      unfold serveUpTo
      split
      · exact ht
      · refine ih _ ?_
        unfold serveRequest executeRequest
        split
        · exact armed_runVerb _ _ _ ht
        · exact ht
  exact this _ _ h

end Sys2Proof.Machine
end

