-- ==== Sys2Proof/WellFormed.lean ====
section
/-! DEFINITION. Which commands are well formed: the bounds the spec sets on what a link delivers and on what a message holds. -/

namespace Sys2Proof

/-- A show link delivers whole spans of 6166 bytes (00_scope, 3; R156). -/
def spanWellFormed (bytes : List Byte) : Bool :=
  bytes.length == Config.spanBytes

/-- A request carries at most 94 operand bytes (8.1). -/
def operandsWellFormed (operands : List Byte) : Bool :=
  decide (operands.length ≤ Config.operandBytes)

/-- The thirteen verb codes are 0x01 to 0x0D (11.2). -/
def verbUnknown (verb : Byte) : Bool :=
  decide (verb = 0 ∨ 0x0D#8 < verb)

/-- The check on one command. A command with no bounded operand is always well formed. -/
def Instr.wellFormed : Instr → Bool
  | .startUp _ _ => true
  | .resetNAsserted => true
  | .powerLoss => true
  | .spanComplete _ bytes => spanWellFormed bytes
  | .spanPeriodStart => true
  | .syncCountdownExpiry => true
  | .programSample => true
  | .transitionStart => true
  | .reversal => true
  | .pendingSwitchFire => true
  | .fadeEnd => true
  | .adoption => true
  | .windowClose _ => true
  | .absentRunReachesNDown _ => true
  | .cleanCountReachesQOk _ => true
  | .revert => true
  | .skewAcceptance _ => true
  | .recentre => true
  | .timeout _ => true
  | .panelSampling _ _ _ => true
  | .press _ _ => true
  | .storeCompletion _ => true
  | .state _ _ operands => operandsWellFormed operands
  | .read _ _ operands => operandsWellFormed operands
  | .write _ _ operands => operandsWellFormed operands
  | .apply _ _ operands => operandsWellFormed operands
  | .discard _ _ operands => operandsWellFormed operands
  | .switch _ _ operands => operandsWellFormed operands
  | .auto _ _ operands => operandsWellFormed operands
  | .lock _ _ operands _ => operandsWellFormed operands
  | .events _ _ operands => operandsWellFormed operands
  | .flush _ _ operands => operandsWellFormed operands
  | .save _ _ operands => operandsWellFormed operands
  | .counters _ _ operands => operandsWellFormed operands
  | .ident _ _ operands => operandsWellFormed operands
  | .badVerb _ _ verb operands => verbUnknown verb && operandsWellFormed operands

end Sys2Proof
end

