-- ==== Sys2Proof/Laws/PerInstr.lean ====
section
/-! SUPPORT. A statement about every command as syntax, proved constructor by constructor. -/

namespace Sys2Proof.Laws.MessageBounded

/-- The unescaped message that a request is sent as: tag, verb code and operands (8.1); empty for a command that is no request. -/
def message : Instr → List Byte
  | .startUp _ _ => []
  | .resetNAsserted => []
  | .powerLoss => []
  | .spanComplete _ _ => []
  | .spanPeriodStart => []
  | .syncCountdownExpiry => []
  | .programSample => []
  | .transitionStart => []
  | .reversal => []
  | .pendingSwitchFire => []
  | .fadeEnd => []
  | .adoption => []
  | .windowClose _ => []
  | .absentRunReachesNDown _ => []
  | .cleanCountReachesQOk _ => []
  | .revert => []
  | .skewAcceptance _ => []
  | .recentre => []
  | .timeout _ => []
  | .panelSampling _ _ _ => []
  | .press _ _ => []
  | .storeCompletion _ => []
  | .state _ tag operands => tag :: 0x01 :: operands
  | .read _ tag operands => tag :: 0x02 :: operands
  | .write _ tag operands => tag :: 0x03 :: operands
  | .apply _ tag operands => tag :: 0x04 :: operands
  | .discard _ tag operands => tag :: 0x05 :: operands
  | .switch _ tag operands => tag :: 0x06 :: operands
  | .auto _ tag operands => tag :: 0x07 :: operands
  | .lock _ tag operands _ => tag :: 0x08 :: operands
  | .events _ tag operands => tag :: 0x09 :: operands
  | .flush _ tag operands => tag :: 0x0A :: operands
  | .save _ tag operands => tag :: 0x0B :: operands
  | .counters _ tag operands => tag :: 0x0C :: operands
  | .ident _ tag operands => tag :: 0x0D :: operands
  | .badVerb _ tag verb operands => tag :: verb :: operands

/-- A well-formed request is a message of at most 96 bytes (8.1). -/
def Statement (i : Instr) : Prop :=
  i.wellFormed = true → (message i).length ≤ Config.messageBytes

/-- Operands within their bound make a message within its bound. -/
theorem of_operands (tag verb : Byte) (operands : List Byte) (h : operandsWellFormed operands = true) :
    (tag :: verb :: operands).length ≤ Config.messageBytes := by
  have h1 : operands.length ≤ 94 := of_decide_eq_true h
  simp only [List.length_cons, Config.messageBytes]
  omega

theorem startUp (kind : ResetKind) (rate : Rate) : Statement (.startUp kind rate) := fun _ => Nat.zero_le _
theorem resetNAsserted : Statement .resetNAsserted := fun _ => Nat.zero_le _
theorem powerLoss : Statement .powerLoss := fun _ => Nat.zero_le _
theorem spanComplete (p : Port) (bytes : List Byte) : Statement (.spanComplete p bytes) := fun _ => Nat.zero_le _
theorem spanPeriodStart : Statement .spanPeriodStart := fun _ => Nat.zero_le _
theorem syncCountdownExpiry : Statement .syncCountdownExpiry := fun _ => Nat.zero_le _
theorem programSample : Statement .programSample := fun _ => Nat.zero_le _
theorem transitionStart : Statement .transitionStart := fun _ => Nat.zero_le _
theorem reversal : Statement .reversal := fun _ => Nat.zero_le _
theorem pendingSwitchFire : Statement .pendingSwitchFire := fun _ => Nat.zero_le _
theorem fadeEnd : Statement .fadeEnd := fun _ => Nat.zero_le _
theorem adoption : Statement .adoption := fun _ => Nat.zero_le _
theorem windowClose (p : Port) : Statement (.windowClose p) := fun _ => Nat.zero_le _
theorem absentRunReachesNDown (p : Port) : Statement (.absentRunReachesNDown p) := fun _ => Nat.zero_le _
theorem cleanCountReachesQOk (p : Port) : Statement (.cleanCountReachesQOk p) := fun _ => Nat.zero_le _
theorem revert : Statement .revert := fun _ => Nat.zero_le _
theorem skewAcceptance (p : Port) : Statement (.skewAcceptance p) := fun _ => Nat.zero_le _
theorem recentre : Statement .recentre := fun _ => Nat.zero_le _
theorem timeout (p : Port) : Statement (.timeout p) := fun _ => Nat.zero_le _
theorem panelSampling (forceA forceB showlock : Bool) : Statement (.panelSampling forceA forceB showlock) := fun _ => Nat.zero_le _
theorem press (contact : Port) (otherClosed : Bool) : Statement (.press contact otherClosed) := fun _ => Nat.zero_le _
theorem storeCompletion (verified : Bool) : Statement (.storeCompletion verified) := fun _ => Nat.zero_le _
theorem state (p : Port) (tag : Byte) (operands : List Byte) : Statement (.state p tag operands) := of_operands _ _ _
theorem read (p : Port) (tag : Byte) (operands : List Byte) : Statement (.read p tag operands) := of_operands _ _ _
theorem write (p : Port) (tag : Byte) (operands : List Byte) : Statement (.write p tag operands) := of_operands _ _ _
theorem apply (p : Port) (tag : Byte) (operands : List Byte) : Statement (.apply p tag operands) := of_operands _ _ _
theorem discard (p : Port) (tag : Byte) (operands : List Byte) : Statement (.discard p tag operands) := of_operands _ _ _
theorem switch (p : Port) (tag : Byte) (operands : List Byte) : Statement (.switch p tag operands) := of_operands _ _ _
theorem auto (p : Port) (tag : Byte) (operands : List Byte) : Statement (.auto p tag operands) := of_operands _ _ _
theorem lock (p : Port) (tag : Byte) (operands : List Byte) (showlock : Bool) : Statement (.lock p tag operands showlock) :=
  of_operands _ _ _
theorem events (p : Port) (tag : Byte) (operands : List Byte) : Statement (.events p tag operands) := of_operands _ _ _
theorem flush (p : Port) (tag : Byte) (operands : List Byte) : Statement (.flush p tag operands) := of_operands _ _ _
theorem save (p : Port) (tag : Byte) (operands : List Byte) : Statement (.save p tag operands) := of_operands _ _ _
theorem counters (p : Port) (tag : Byte) (operands : List Byte) : Statement (.counters p tag operands) := of_operands _ _ _
theorem ident (p : Port) (tag : Byte) (operands : List Byte) : Statement (.ident p tag operands) := of_operands _ _ _
theorem badVerb (p : Port) (tag : Byte) (verb : Byte) (operands : List Byte) : Statement (.badVerb p tag verb operands) :=
  fun h => of_operands _ _ _ (Bool.and_eq_true _ _ ▸ h).2

end Sys2Proof.Laws.MessageBounded
end

