-- ==== Sys2Proof/Laws/Sample.lean ====
section
/-! SUPPORT. What one program sample, and the rest of a period's samples, can do: the frame of a sample and the hand-over of a finished
program span. -/

namespace Sys2Proof.Machine

/-- What one program sample can change: the clock's count of samples, the mixer, the program port, the program position, and all that
the control frame allows. -/
structure SampleFrame (s t : State) : Prop where
  pending : t.pending = s.pending
  run : t.run = s.run
  rate : t.rate = s.rate
  pins : t.pins = s.pins
  lines : t.lines = s.lines
  clock : t.clock = { s.clock with made := t.clock.made }
  ports : t.ports = s.ports
  health : t.health = s.health
  pointer : t.pointer = s.pointer
  store : t.store = s.store
  sentReturn : t.sentReturn = s.sentReturn
  free : t.free = s.free
  staged : t.tables.staged = s.tables.staged
  lock : t.tables.lock = s.tables.lock
  readDelays : t.mixer.delays = s.mixer.delays
  debounce : t.ctrl.debounce = s.ctrl.debounce
  offered : s.Offered t
  live : s.LiveStep t
  delays : s.GuardOk → s.AlignDelaysOk → t.AlignDelaysOk

theorem SampleFrame.refl (s : State) : SampleFrame s s :=
  ⟨rfl, rfl, rfl, rfl, rfl, rfl, rfl, rfl, rfl, rfl, rfl, rfl, rfl, rfl, rfl, rfl, Offered.refl s, LiveStep.refl s, fun _ h => h⟩

theorem SampleFrame.of_control {s t : State} (h : ControlFrame s t) : SampleFrame s t :=
  ⟨h.pending, h.run, h.rate, h.pins, h.lines, by rw [h.clock], h.ports, h.health, h.pointer, h.store, h.sentReturn, h.free,
    h.staged, h.lock, h.readDelays, h.debounce, h.offered, h.live, h.delays⟩

theorem SampleFrame.trans {s t u : State} (h1 : SampleFrame s t) (h2 : SampleFrame t u) : SampleFrame s u where
  pending := h2.pending.trans h1.pending
  run := h2.run.trans h1.run
  rate := h2.rate.trans h1.rate
  pins := h2.pins.trans h1.pins
  lines := h2.lines.trans h1.lines
  clock := by rw [h2.clock, h1.clock]
  ports := h2.ports.trans h1.ports
  health := h2.health.trans h1.health
  pointer := h2.pointer.trans h1.pointer
  store := h2.store.trans h1.store
  sentReturn := h2.sentReturn.trans h1.sentReturn
  free := h2.free.trans h1.free
  staged := h2.staged.trans h1.staged
  lock := h2.lock.trans h1.lock
  readDelays := h2.readDelays.trans h1.readDelays
  debounce := h2.debounce.trans h1.debounce
  offered := Offered.trans h1.offered h2.offered
  live := LiveStep.trans h1.live h2.live h1.staged h1.lock
  delays := fun g d => h2.delays (GuardOk.step h1.live h1.staged g) (h1.delays g d)

theorem frame_sampleStep1 (s : State) : ControlFrame s (sampleStep1 s) := by
  unfold sampleStep1
  split
  · exact (frame_controllerSpanStart s).trans (frame_tableSpanStart _)
  · exact .refl s

/-- A write of the mixer's own fields, the delays it reads with excepted, is within the sample frame. -/
theorem sample_mixer (s : State) (m : Mixer) (h : m.delays = s.mixer.delays) : SampleFrame s { s with mixer := m } :=
  ⟨rfl, rfl, rfl, rfl, rfl, rfl, rfl, rfl, rfl, rfl, rfl, rfl, rfl, rfl, h, rfl, Offered.refl _, LiveStep.refl _, fun _ h => h⟩

theorem sample_noteMark (s : State) : SampleFrame s (noteMark s) := by
  unfold noteMark
  split
  · exact .refl s
  · exact sample_mixer s _ rfl

theorem sample_answerMark (m : MarkReport) (s : State) : SampleFrame s (answerMark m s) :=
  (sample_noteMark s).trans (.of_control ((frame_controllerMark m _).trans (frame_tableMark m _)))

theorem sample_sampleStep2 (s : State) : SampleFrame s (sampleStep2 s) := by
  unfold sampleStep2
  have h := sample_mixer s { s.mixer with earlyMark := none } rfl
  dsimp only
  split
  · exact h.trans (sample_answerMark _ _)
  · exact h

theorem frame_sampleRestamp (s : State) : ControlFrame s (sampleRestamp s) := by
  unfold sampleRestamp
  split
  · exact frame_align s { s.align with position := s.restamped } rfl
  · exact .refl s

theorem frame_sampleStep3 (s : State) : ControlFrame s (sampleStep3 s) := by
  unfold sampleStep3
  split
  · exact frame_ctrl s { s.ctrl with q := s.ctrl.q + 1 } rfl
  · exact .refl s

theorem sample_mixSample (s : State) : SampleFrame s (mixSample s) :=
  ⟨rfl, rfl, rfl, rfl, rfl, rfl, rfl, rfl, rfl, rfl, rfl, rfl, rfl, rfl, rfl, rfl, Offered.refl _, LiveStep.refl _, fun _ h => h⟩

theorem frame_sampleStep5 (s : State) : ControlFrame s (sampleStep5 s) := by
  unfold sampleStep5
  split
  · exact frame_fadeEnd s
  · exact .refl s

theorem sample_sampleMixed (s : State) :
    SampleFrame s (sampleMixed s) :=
  ((((SampleFrame.of_control (frame_sampleStep1 s)).trans (sample_sampleStep2 _)).trans
    (.of_control (frame_sampleRestamp _))).trans (.of_control (frame_sampleStep3 _))).trans (sample_mixSample _)

theorem sample_countSample (s : State) : SampleFrame s (countSample s) :=
  ⟨rfl, rfl, rfl, rfl, rfl, rfl, rfl, rfl, rfl, rfl, rfl, rfl, rfl, rfl, rfl, rfl, Offered.refl _, LiveStep.refl _, fun _ h => h⟩

theorem sample_handOver (s : State) : SampleFrame s (handOver s) := by
  unfold handOver
  split
  · exact ⟨rfl, rfl, rfl, rfl, rfl, rfl, rfl, rfl, rfl, rfl, rfl, rfl, rfl, rfl, rfl, rfl, Offered.refl _, LiveStep.refl _,
      fun _ h => h⟩
  · exact .refl s

/-- A program sample stays within the sample frame. -/
theorem sample_makeSample (s : State) : SampleFrame s (makeSample s) :=
  ((((sample_sampleMixed s).trans (.of_control (frame_sampleStep5 _))).trans (.of_control (frame_recordAdoption _ _))).trans
    (sample_countSample _)).trans (sample_handOver _)

/-! ### The count of samples, and the program port -/

/-- No step of a sample before its count changes the count, or the program port. -/
theorem stepsTo5_clock (s : State) :
    (recordAdoption s (sampleStep5 (sampleMixed s))).clock = s.clock := by
  have h2 : ∀ t : State, (sampleStep2 t).clock = t.clock := by
    intro t
    have hn : ∀ u : State, (noteMark u).clock = u.clock := by intro u; unfold noteMark; split <;> rfl
    have ha : ∀ (m : MarkReport) (u : State), (answerMark m u).clock = u.clock := by
      intro m u
      unfold answerMark
      rw [(frame_tableMark m _).clock, (frame_controllerMark m _).clock, hn]
    unfold sampleStep2
    dsimp only
    split
    · rw [ha]
    · rfl
  rw [(frame_recordAdoption _ _).clock, (frame_sampleStep5 _).clock]
  show (sampleStep3 _).clock = _
  rw [(frame_sampleStep3 _).clock, (frame_sampleRestamp _).clock, h2, (frame_sampleStep1 _).clock]

theorem stepsTo5_prog (s : State) :
    (recordAdoption s (sampleStep5 (sampleMixed s))).prog = s.prog
      ∧ (recordAdoption s (sampleStep5 (sampleMixed s))).sentProgram = s.sentProgram := by
  have hn : ∀ u : State, (noteMark u).prog = u.prog ∧ (noteMark u).sentProgram = u.sentProgram := by
    intro u; unfold noteMark; split <;> exact ⟨rfl, rfl⟩
  have ha : ∀ (m : MarkReport) (u : State), (answerMark m u).prog = u.prog ∧ (answerMark m u).sentProgram = u.sentProgram := by
    intro m u
    unfold answerMark
    rw [(frame_tableMark m _).prog, (frame_controllerMark m _).prog, (frame_tableMark m _).sentProgram,
      (frame_controllerMark m _).sentProgram]
    exact hn u
  have h2 : ∀ t : State, (sampleStep2 t).prog = t.prog ∧ (sampleStep2 t).sentProgram = t.sentProgram := by
    intro t
    unfold sampleStep2
    dsimp only
    split
    · exact ha _ _
    · exact ⟨rfl, rfl⟩
  constructor
  · rw [(frame_recordAdoption _ _).prog, (frame_sampleStep5 _).prog]
    show (sampleStep3 _).prog = _
    rw [(frame_sampleStep3 _).prog, (frame_sampleRestamp _).prog, (h2 _).1, (frame_sampleStep1 _).prog]
  · rw [(frame_recordAdoption _ _).sentProgram, (frame_sampleStep5 _).sentProgram]
    show (sampleStep3 _).sentProgram = _
    rw [(frame_sampleStep3 _).sentProgram, (frame_sampleRestamp _).sentProgram, (h2 _).2, (frame_sampleStep1 _).sentProgram]

/-- One sample counts one. -/
theorem makeSample_clock (s : State) : (makeSample s).clock = { s.clock with made := s.clock.made + 1 } := by
  unfold makeSample handOver
  have h := stepsTo5_clock s
  split
  · show ({ (recordAdoption _ _).clock with made := _ } : Clock) = _
    rw [h]
  · show ({ (recordAdoption _ _).clock with made := _ } : Clock) = _
    rw [h]

theorem makeSample_made (s : State) : (makeSample s).clock.made = s.clock.made + 1 := by rw [makeSample_clock]

/-- Before the last sample of a span the program port stands. -/
theorem makeSample_prog_of_lt (s : State) (h : s.clock.made + 1 ≠ 32) :
    (makeSample s).prog = s.prog ∧ (makeSample s).sentProgram = s.sentProgram := by
  unfold makeSample handOver
  have hm : (countSample (recordAdoption s (sampleStep5 (sampleMixed s)))).clock.made
      ≠ Config.spanLength := by
    show (recordAdoption _ _).clock.made + 1 ≠ _
    rw [stepsTo5_clock]
    exact h
  rw [if_neg hm]
  exact stepsTo5_prog s

/-- The rest of a period's samples stay within the sample frame. -/
theorem sample_makeSamples (n : Nat) (s : State) : SampleFrame s (makeSamples n s) := by
  induction n generalizing s with
  | zero => exact .refl s
  | succ n ih => exact (sample_makeSample s).trans (ih _)

theorem makeSamples_made (n : Nat) (s : State) : (makeSamples n s).clock.made = s.clock.made + n := by
  induction n generalizing s with
  | zero => rfl
  | succ n ih =>
    show (makeSamples n (makeSample s)).clock.made = _
    rw [ih, makeSample_made]
    omega

/-- A period's samples are all made after the rest of them is made. -/
theorem finishSamples_made (s : State) (h : s.clock.made ≤ 32) : (finishSamples s).clock.made = 32 := by
  unfold finishSamples
  by_cases hm : s.clock.made < Config.spanLength
  · rw [if_pos hm, (engine_runEngine _).clock, makeSamples_made]
    simp only [Config.spanLength] at hm ⊢
    omega
  · rw [if_neg hm]
    simp only [Config.spanLength] at hm
    omega

/-- With a period's samples made there is nothing to finish. -/
theorem finishSamples_of_made {s : State} (h : s.clock.made = 32) : finishSamples s = s := by
  simp [finishSamples, h, Config.spanLength]

/-- The rest of a period's samples, and the engine's look after them. -/
theorem finishSamples_of_lt {s : State} (h : s.clock.made < 32) :
    finishSamples s = runEngine (makeSamples (32 - s.clock.made) s) := by
  simp [finishSamples, h, Config.spanLength]

/-- A period in progress, with samples to make, is caught up for its next sample. -/
theorem atSample_of_begun {s : State} (hb : s.clock.begun = true) (hm : s.clock.made < 32) : atSample s = s := by
  simp [atSample, hb, hm, Config.spanLength]

/-- A period whose samples are made and whose window of p is open is caught up for that window. -/
theorem atWindow_of_open {s : State} {p : Port} (hb : s.clock.begun = true) (hc : s.clock.closed.get p = false)
    (hm : s.clock.made = 32) : atWindow p s = s := by
  simp [atWindow, hb, hc, finishSamples_of_made hm]

/-- A period whose samples are made and whose contacts are not sampled is caught up for that sampling. -/
theorem atPanel_of_open {s : State} (hb : s.clock.begun = true) (hd : s.clock.panelDone = false) (hm : s.clock.made = 32) :
    atPanel s = s := by
  simp [atPanel, hb, hd, finishSamples_of_made hm]

/-- A period with nothing owed is ended as it stands. -/
theorem endPeriod_of_done {s : State} (hc : s.clock.closed = ⟨true, true⟩) (hd : s.clock.panelDone = true)
    (hm : s.clock.made = 32) : endPeriod s = s := by
  unfold endPeriod
  split
  · simp [finishSamples_of_made hm, closeIfOpen, sampleIfDue, hc, hd, PerPort.get]
  · rfl

/-! ### The switch record through a sample (R70) -/

theorem armed_makeSample (s : State) (h : s.SwitchArmed) : (makeSample s).SwitchArmed := by
  have h1 : (sampleStep1 s).SwitchArmed := by
    unfold sampleStep1
    split
    · exact armed_of_ctrl (tableSpanStart_ctrl _) (armed_answerNow _ (armed_answerScheduled s h))
    · exact h
  have hn : ∀ (u : State), (noteMark u).ctrl = u.ctrl := by intro u; unfold noteMark; split <;> rfl
  have h2 : ∀ u : State, u.SwitchArmed → (sampleStep2 u).SwitchArmed := by
    intro u hu
    unfold sampleStep2
    dsimp only
    split
    · refine armed_of_ctrl (tableMark_ctrl _ _) (armed_controllerMark _ _ ?_)
      exact armed_of_ctrl (hn _) hu
    · exact hu
  have h3 : ∀ u : State, u.SwitchArmed → (mixSample (sampleStep3 (sampleRestamp u))).SwitchArmed := by
    intro u hu
    unfold sampleStep3 sampleRestamp mixSample
    split <;> split <;> exact hu
  have h5 : ∀ u : State, u.SwitchArmed → (sampleStep5 u).SwitchArmed := by
    intro u hu
    unfold sampleStep5
    split
    · exact armed_fadeEnd u hu
    · exact hu
  have h6 := armed_of_ctrl (recordAdoption_ctrl s _) (h5 _ (h3 _ (h2 _ h1)))
  unfold makeSample handOver
  split <;> exact h6

end Sys2Proof.Machine
end

