-- ==== Sys2Proof/Laws/Step.lean ====
section
/-! SUPPORT. What a property needs to be kept by every step: it is kept by each of the operations that the commands are made of. -/

namespace Sys2Proof.Machine

/-- A property of states that every operation a command is made of keeps. -/
structure Kept (P : State → Prop) : Prop where
  lines : ∀ (s : State) (l : OutputLines), P s → P { s with lines := l }
  pins : ∀ (s : State) (x : InputLines), P s → P { s with pins := x }
  startUp : ∀ (k : ResetKind) (r : Rate) (s : State), P s → P (Sys2Proof.Machine.startUp k r s)
  assertReset : ∀ s, P s → P (Sys2Proof.Machine.assertReset s)
  losePower : ∀ s, P s → P (Sys2Proof.Machine.losePower s)
  completeWrite : ∀ (v : Bool) (s : State), P s → P (Sys2Proof.Machine.completeWrite v s)
  enterStore : ∀ (p : Port) (b : List Byte) (s : State), P s → P (s.setPort p (Sys2Proof.Machine.enterStore b (s.ports.get p)))
  begin : ∀ s, P s → P { s with clock := s.clock.next, mixer := spanMixer s }
  sendReturn : ∀ (p : Port) (s : State), P s → P (sendReturnSpan p s)
  sample : ∀ s, s.clock.made < 32 → P s → P (makeSample s)
  window : ∀ (p : Port) (s : State), P s → P (closeWindow p s)
  panel : ∀ (a b : Bool) (s : State), P s → P (samplePanel a b s)
  engine : ∀ s, P s → P (runEngine s)
  scheduled : ∀ s, P s → P (answerScheduled s)
  now : ∀ s, P s → P (answerNow s)
  table : ∀ s, P s → P (tableSpanStart s)
  record : ∀ (b s : State), P s → P (recordAdoption b s)
  early : ∀ (m : MarkReport) (s : State), P s → P (keepMark m s)
  markSwitch : ∀ (m : MarkReport) (s : State), P s → P (controllerMark m s)
  markApply : ∀ (m : MarkReport) (s : State), P s → P (tableMark m s)
  offer : ∀ (p : Port) (m : List Byte) (s : State), P s → P (offerMessage p m s)
  long : ∀ (p : Port) (s : State), P s → P (raiseMgmtError p .long s)

section

variable {P : State → Prop} (h : Kept P)

include h

theorem Kept.samples (n : Nat) : ∀ s : State, s.clock.made + n ≤ 32 → P s → P (makeSamples n s) := by
  induction n with
  | zero => exact fun _ _ hs => hs
  | succ n ih =>
    intro s hm hs
    exact ih _ (by rw [makeSample_made]; omega) (h.sample s (by omega) hs)

theorem Kept.finish (s : State) (hs : P s) : P (finishSamples s) := by
  unfold finishSamples
  split
  · next hm =>
    simp only [Config.spanLength] at hm ⊢
    exact h.engine _ (h.samples _ s (by omega) hs)
  · exact hs

theorem Kept.atRequest (s : State) (hs : P s) : P (Sys2Proof.Machine.atRequest s) := by
  unfold Sys2Proof.Machine.atRequest
  split
  · exact h.finish s hs
  · exact hs

theorem Kept.look (s : State) (hs : P s) : P (lookAfterSpan s) := by
  unfold lookAfterSpan
  split
  · exact h.engine s hs
  · exact hs

theorem Kept.serve (p : Port) (s : State) (hs : P s) : P (closeAndServe p s) := h.engine _ (h.window p s hs)

theorem Kept.closeIfOpen (p : Port) (s : State) (hs : P s) : P (Sys2Proof.Machine.closeIfOpen p s) := by
  unfold Sys2Proof.Machine.closeIfOpen
  split
  · exact hs
  · exact h.serve p s hs

theorem Kept.endPeriod (s : State) (hs : P s) : P (Sys2Proof.Machine.endPeriod s) := by
  unfold Sys2Proof.Machine.endPeriod
  split
  · unfold sampleIfDue
    have hw := h.closeIfOpen .b _ (h.closeIfOpen .a _ (h.finish s hs))
    split
    · exact hw
    · exact h.panel _ _ _ hw
  · exact hs

theorem Kept.nextPeriod (s : State) (hs : P s) : P (Sys2Proof.Machine.nextPeriod s) :=
  h.sendReturn .b _ (h.sendReturn .a _ (h.begin _ (h.endPeriod s hs)))

theorem Kept.atSample (s : State) (hs : P s) : P (Sys2Proof.Machine.atSample s) := by
  unfold Sys2Proof.Machine.atSample
  split
  · exact hs
  · exact h.nextPeriod s hs

theorem Kept.atWindow (p : Port) (s : State) (hs : P s) : P (Sys2Proof.Machine.atWindow p s) := by
  unfold Sys2Proof.Machine.atWindow
  split
  · exact h.finish s hs
  · exact h.finish _ (h.nextPeriod s hs)

theorem Kept.atPanel (s : State) (hs : P s) : P (Sys2Proof.Machine.atPanel s) := by
  unfold Sys2Proof.Machine.atPanel
  split
  · exact h.finish s hs
  · exact h.finish _ (h.nextPeriod s hs)

omit h in
/-- Caught up for a sample, a period has a sample to make. -/
theorem atSample_made (s : State) : (Sys2Proof.Machine.atSample s).clock.made < 32 := by
  unfold Sys2Proof.Machine.atSample
  split
  · next hc => exact of_decide_eq_true (Bool.and_eq_true_iff.mp hc).2
  · unfold Sys2Proof.Machine.nextPeriod startPeriod
    show 0 < 32
    decide

theorem Kept.sampleOf (s : State) (hs : P s) : P (nextSample s) :=
  h.look _ (h.sample _ (atSample_made s) (h.atSample s hs))

theorem Kept.answerStart (w : StartAction → Bool) (s : State) (hs : P s) : P (Sys2Proof.Machine.answerStart w s) := by
  unfold Sys2Proof.Machine.answerStart
  dsimp only
  split
  · exact h.scheduled _ (h.atSample s hs)
  · exact hs

theorem Kept.step1 (s : State) (hs : P s) : P (sampleStep1 s) := by
  unfold sampleStep1
  split
  · exact h.table _ (h.now _ (h.scheduled s hs))
  · exact hs

theorem Kept.fire (s : State) (hs : P s) : P (fireAtSample s) := by
  unfold fireAtSample
  have h1 : P (scheduledAnswered (Sys2Proof.Machine.atSample s)) := by
    unfold scheduledAnswered
    split
    · exact h.scheduled _ (h.atSample s hs)
    · exact h.atSample s hs
  have h2 := h.step1 _ (h.atSample s hs)
  dsimp only
  split
  · exact h.now _ h1
  · split
    · split
      · exact h.early _ _ (h.record _ _ (h.markSwitch _ _ h2))
      · exact hs
    · exact hs

theorem Kept.endFade (s : State) (hs : P s) : P (endFadeAtSample s) := by
  unfold endFadeAtSample
  dsimp only
  split
  · exact h.sampleOf _ (h.atSample s hs)
  · exact hs

theorem Kept.recordBehind (before after : State) (hs : P after) : P (Sys2Proof.Machine.recordBehind before after) := by
  unfold Sys2Proof.Machine.recordBehind
  split
  · exact h.record _ _ (h.fire _ (h.answerStart _ _ hs))
  · exact hs

theorem Kept.adopt (s : State) (hs : P s) : P (adoptAtSample s) := by
  unfold adoptAtSample
  have h1 := h.atSample s hs
  have h2 := h.step1 _ h1
  dsimp only
  split
  · exact h.recordBehind _ _ (h.table _ h1)
  · split
    · split
      · exact h.recordBehind _ _ (h.early _ _ (h.markApply _ _ h2))
      · exact hs
    · exact hs

theorem Kept.closeIf (p : Port) (f : State → State → Bool) (s : State) (hs : P s) : P (Sys2Proof.Machine.closeIf p f s) := by
  unfold Sys2Proof.Machine.closeIf
  dsimp only
  split
  · exact h.engine _ (h.window p _ (h.atWindow p s hs))
  · exact hs

theorem Kept.recentre (s : State) (hs : P s) : P (recentreAtWindow s) := by
  unfold recentreAtWindow
  split
  · exact h.closeIf _ _ s hs
  all_goals exact hs

theorem Kept.press (c : Port) (o : Bool) (s : State) (hs : P s) : P (pressAtSampling c o s) := by
  unfold pressAtSampling
  dsimp only
  split
  · exact h.panel _ _ _ (h.atPanel s hs)
  · exact hs

theorem Kept.lastSync (s : State) (hs : P s) : P (sendLastSync s) := by
  unfold sendLastSync
  split
  · exact h.finish _ (h.atSample s hs)
  · exact hs

theorem Kept.submit (p : Port) (m : List Byte) (s : State) (hs : P s) : P (submitRequest p m s) := by
  unfold submitRequest
  split
  · exact h.engine _ (h.offer p m _ (h.atRequest s hs))
  · exact h.long p _ (h.atRequest s hs)

omit h in
theorem complete_next (s t : State) : complete s = .next t ↔ t = s.settleLines := by
  unfold complete
  constructor
  · intro e; injection e with e; exact e.symm
  · rintro rfl; rfl

theorem Kept.completed (s t : State) (hs : P s) (e : complete s = .next t) : P t := by
  rw [complete_next] at e
  subst e
  exact h.lines s _ hs

theorem Kept.running (f : State → State) (s t : State) (hf : P s → P (f s)) (hs : P s) (e : whileRunning f s = .next t) : P t := by
  unfold whileRunning at e
  split at e
  · exact h.completed _ _ (hf hs) e
  · exact h.completed _ _ hs e

/-- A property that the operations keep is kept by every command. -/
theorem Kept.exec (c : Instr) (s t : State) (hs : P s) (e : Sys2Proof.Machine.exec c s = .next t) : P t := by
  cases c with
  | startUp k r => exact h.completed _ _ (h.startUp k r s hs) e
  | resetNAsserted => exact h.completed _ _ (h.assertReset s hs) e
  | powerLoss => exact h.completed _ _ (h.losePower s hs) e
  | spanComplete p b => exact h.running (fun s => s.setPort p (Sys2Proof.Machine.enterStore b (s.ports.get p))) s t (h.enterStore p b s) hs e
  | spanPeriodStart => exact h.running _ s t (h.nextPeriod s) hs e
  | syncCountdownExpiry => exact h.running _ s t (h.lastSync s) hs e
  | programSample => exact h.running nextSample s t (h.sampleOf s) hs e
  | transitionStart => exact h.running _ s t (h.answerStart _ s) hs e
  | reversal => exact h.running _ s t (h.answerStart _ s) hs e
  | pendingSwitchFire => exact h.running _ s t (h.fire s) hs e
  | fadeEnd => exact h.running _ s t (h.endFade s) hs e
  | adoption => exact h.running _ s t (h.adopt s) hs e
  | windowClose p => 
    exact h.running (fun s => closeAndServe p (Sys2Proof.Machine.atWindow p s)) s t (fun x => h.serve p _ (h.atWindow p s x)) hs e
  | absentRunReachesNDown p => exact h.running _ s t (h.closeIf p _ s) hs e
  | cleanCountReachesQOk p => exact h.running _ s t (h.closeIf p _ s) hs e
  | revert => exact h.running _ s t (h.closeIf _ _ s) hs e
  | skewAcceptance p => exact h.running _ s t (h.closeIf p _ s) hs e
  | recentre => exact h.running _ s t (h.recentre s) hs e
  | timeout p => exact h.running _ s t (h.closeIf p _ s) hs e
  | panelSampling a b k => 
    exact h.running
      (fun s => samplePanel a b (setShowlock k (Sys2Proof.Machine.atPanel s))) s t
      (fun x => h.panel a b _ (h.pins _ _ (h.atPanel s x))) hs e
  | press c o => exact h.running _ s t (h.press c o s) hs e
  | storeCompletion v => exact h.running _ s t (h.completeWrite v s) hs e
  | state p tag o => exact h.running _ s t (h.submit p _ s) hs e
  | read p tag o => exact h.running _ s t (h.submit p _ s) hs e
  | write p tag o => exact h.running _ s t (h.submit p _ s) hs e
  | apply p tag o => exact h.running _ s t (h.submit p _ s) hs e
  | discard p tag o => exact h.running _ s t (h.submit p _ s) hs e
  | switch p tag o => exact h.running _ s t (h.submit p _ s) hs e
  | auto p tag o => exact h.running _ s t (h.submit p _ s) hs e
  | lock p tag o k => 
    exact h.running
      (fun s => submitRequest p (tag :: 0x08 :: o) (setShowlock k (Sys2Proof.Machine.atRequest s))) s t
      (fun x => h.submit p _ _ (h.pins _ _ (h.atRequest s x))) hs e
  | events p tag o => exact h.running _ s t (h.submit p _ s) hs e
  | flush p tag o => exact h.running _ s t (h.submit p _ s) hs e
  | save p tag o => exact h.running _ s t (h.submit p _ s) hs e
  | counters p tag o => exact h.running _ s t (h.submit p _ s) hs e
  | ident p tag o => exact h.running _ s t (h.submit p _ s) hs e
  | badVerb p tag v o => exact h.running _ s t (h.submit p _ s) hs e

/-- A property that the operations keep, and that does not read the queue, is kept by every step. -/
theorem Kept.step (hq : ∀ (s : State) (q : List Instr), P s → P { s with pending := q }) (s t : State) (hs : P s) (e : Sys2Proof.Machine.step s = .next t) : P t := by
  unfold Sys2Proof.Machine.step at e
  split at e
  · injection e with e
    exact e ▸ hs
  · exact h.exec _ _ t (hq s _ hs) e

end

end Sys2Proof.Machine
end

