-- ==== Sys2Proof/Tests/Slice0.lean ====
section
/-! SUPPORT. Small tests: the checks on ill-formed commands, the worked examples of the spec, and for each statement with hypotheses a
concrete state that meets them. Each comment names where its expected values come from. -/

set_option Elab.async false

namespace Sys2Proof.Tests

open Sys2Proof.Machine

/-! ## Well-formedness and the table's words -/

theorem test_span_of_wrong_length : (Instr.spanComplete .a [0x5A, 0x00]).wellFormed = false := by decide
theorem test_span_of_right_length : (Instr.spanComplete .b (List.replicate 6166 0)).wellFormed = true := by decide +kernel
theorem test_ninety_four_operands : (Instr.write .a 1 (List.replicate 94 0)).wellFormed = true := by decide +kernel
theorem test_ninety_five_operands : (Instr.write .a 1 (List.replicate 95 0)).wellFormed = false := by decide +kernel
theorem test_known_verb_is_not_bad : (Instr.badVerb .a 1 0x0D []).wellFormed = false := by decide
theorem test_unknown_verb_is_bad : (Instr.badVerb .a 1 0x0E []).wellFormed = true := by decide
theorem test_bad_verb_of_long_operands : (Instr.badVerb .a 1 0x00 (List.replicate 95 0)).wellFormed = false := by decide +kernel
theorem test_no_word_spells_a_command : decodeTableWord 8 0x5A = none := rfl

/-! ## Formats (11) -/

/-- R156: the nine bytes 0x31 to 0x39 give 0x29B1. -/
theorem test_check_word : crc16 [0x31, 0x32, 0x33, 0x34, 0x35, 0x36, 0x37, 0x38, 0x39] = 0x29B1 := by decide +kernel

/-- 11.5: the SKEW record of skew 900 at window 8007 with delay 64. -/
theorem test_skew_record : EventRecord.bytes ⟨.skew 900 64, 8007⟩
    = [8, 0xFF, 8, 0, 0, 0, 0x1F, 0x47, 0, 0, 0, 0x03, 0x84, 0, 0, 0x40] := by decide +kernel

/-- 11.5: a skew of -900 is written 0xFFFFFFFC7C. -/
theorem test_negative_skew : skewBytes (some (-900)) = [0xFF, 0xFF, 0xFF, 0xFC, 0x7C] := by decide +kernel

/-- 8.5: the WRITE of value 500 at index 70, tagged 0xF5, occupies 11 lane bytes. -/
theorem test_escaped_message : frameMessage [0xF5, 0x03, 0x01, 0x00, 0x46, 0x01, 0xF4]
    = [0xF4, 0xF5, 0x02, 0x03, 0x01, 0x00, 0x46, 0x01, 0xF5, 0x01, 0xF4] := by decide

/-- R147: the factory mask is 49798, bits 1, 2, 7, 9, 14 and 15. -/
theorem test_factory_mask : (List.range 16).filter factoryTables.alertMask.testBit = [1, 2, 7, 9, 14, 15] := by decide +kernel

/-! ## Curves and the mix (5.8, 4.13) -/

/-- 5.8, case 1: F = 96, C(40) = 13653 and C(56) = 19114. -/
theorem test_curve_of_96 : evalCurve factoryTables 0 96 40 = 13653 ∧ evalCurve factoryTables 0 96 56 = 19114 := by decide +kernel

/-- 4.13: F = 256, C(160), C(161) and C(95). -/
theorem test_curve_of_256 : evalCurve factoryTables 0 256 160 = 20480 ∧ evalCurve factoryTables 0 256 161 = 20608
    ∧ evalCurve factoryTables 0 256 95 = 12160 := by decide +kernel

/-- R88: every eighth point of curve 1. -/
theorem test_equal_power_points : (List.range 9).map (fun i => factoryTables.curve.getD (65 + 8 * i) 0)
    = [0, 6393, 12540, 18205, 23170, 27246, 30274, 32138, 32768] := by decide +kernel

/-- 5.8, case 2: the rounded sum. -/
theorem test_mix_case_2 : roundMix (3000000 * 19968 + 2999000 * 12800) = 2999609 := by decide +kernel

/-- 5.8, case 3: the sum that saturates. -/
theorem test_mix_case_3 : roundMix (16000000 * 23170) = 11313477 ∧ saturates 11313477 = true
    ∧ limitSample 11313477 = 8388607 := by decide +kernel

/-- 5.8: a half is rounded toward plus infinity. -/
theorem test_rounding_at_the_half : roundMix 81920 = 3 ∧ roundMix (-81920) = -2 ∧ roundMix (-49152) = -1 := by decide +kernel

/-! ## Delays and alignment (3.11) -/

/-- 3.11: skew 480 in IDLE gives 736 and 256; skew 900 recentred gives 1156 and 256. -/
theorem test_recentre_pairs : recentrePair 256 (some 480) = ⟨736, 256, false⟩ ∧ recentrePair 256 (some 900) = ⟨1156, 256, false⟩ := by
  decide +kernel

/-- 3.11: 736 - 400 = 336, and 736 - 900 is raised to 64 by the lower clamp. -/
theorem test_off_air_pairs : offAirPair 736 400 = ⟨736, 336, false⟩ ∧ offAirPair 736 900 = ⟨736, 64, true⟩ := by decide +kernel

/-- R39: 2^39 is read as positive, and the remainder above it as negative. -/
theorem test_signed_reading : signed40 (BitVec.ofNat 40 (2 ^ 39)) = 2 ^ 39
    ∧ signed40 (BitVec.ofNat 40 (2 ^ 39 + 1)) = 1 - 2 ^ 39 := by decide +kernel

/-! ## Health and lock -/

/-- 2.9: a STALL window, then a STALL and SEQUENCE window, takes score 0 to 96 and GOOD to SUSPECT with cause SEQUENCE. -/
theorem test_score_of_example : scoreAfter 4 (faultSum factoryTables [.stall]) 0 = 24
    ∧ scoreAfter 4 (faultSum factoryTables [.sequence, .stall]) 24 = 96
    ∧ verdictAfter factoryTables 72 96 .good 0 = (.suspect, 0)
    ∧ heaviestFault factoryTables [.sequence, .stall] = .fault .sequence := by decide +kernel

/-- 2.10: the window that leaves score 31 begins probation, and damage in probation is FAILED with its count kept. -/
theorem test_probation : verdictAfter factoryTables 0 31 .failed 0 = (.recovering, 0)
    ∧ verdictAfter factoryTables 48 48 .recovering 24 = (.failed, 24)
    ∧ verdictAfter factoryTables 0 0 .recovering 63 = (.good, 64) := by decide +kernel

/-- 7.6: {6, 0} locks channels 0 to 31, {4, 1} locks 8 to 63; R112: {0, 0} and {7, 1} are disengaged. -/
theorem test_lock_sets : (List.range 64).filter (channelLocked ⟨6, false, .line⟩) = List.range 32
    ∧ (List.range 64).filter (channelLocked ⟨4, true, .openMode⟩) = (List.range 56).map (· + 8)
    ∧ lockEngaged ⟨0, false, .openMode⟩ = false ∧ lockEngaged ⟨7, true, .openMode⟩ = false := by decide +kernel

/-! ## The receiver (1.11) -/

/-- The tables of the example: L_SYNC 3 and N_DOWN 2. -/
def exampleTables : Tables :=
  { factoryTables with profile := (factoryTables.profile.set 23 3).set 24 2 }

/-- 1.11: a check failure in TRAINING restarts the count, and the second absent window of LOCKED is DOWN. -/
theorem test_receiver_rows : rxAfter exampleTables .training 2 0 (.check []) = (.training, 0)
    ∧ rxAfter exampleTables .locked 0 1 .absent = (.locked, 0) ∧ rxAfter exampleTables .locked 0 2 .absent = (.down, 0) := by
  decide +kernel

/-- 1.11: damaged span after window 107 is predicted 32 on, with the number and song of the record. -/
theorem test_prediction : predictedMeta 108 19 (some ⟨107, 50000, true, 4⟩) = ⟨19, 50032, true, false, 0, 4⟩ := by decide +kernel

/-! ## States the tests run on -/

/-- The next state of a command. -/
def after (c : Instr) (s : State) : State :=
  match exec c s with
  | .next t => t
  | .fault _ => s
  | .refused _ => s

/-- Both ports LOCKED and GOOD with score 0, window 5, this many samples made, in this controller state. -/
def playing (made : Nat) (mode : Mode) : State :=
  { State.reset with
    clock := ⟨5, true, made, ⟨false, false⟩, false⟩
    ports := PerPort.both { resetPort with rx := .locked, expected := 5 }
    prog := ⟨0, 0⟩
    health := PerPort.both { resetHealth with score := 0, verdict := .good, lockView := true }
    ctrl := { resetController with mode := mode } }

/-- The window of each port is due, in this controller state. -/
def windowState (mode : Mode) : State :=
  playing 32 mode

/-- The same with other live PROFILE values at some indices. -/
def withFields (s : State) (fields : List (Nat × Nat)) : State :=
  { s with tables := { s.tables with live := { s.tables.live with
      profile := fields.foldl (fun l f => l.set f.1 f.2) s.tables.live.profile } } }

/-- The same with this span in port A's elastic store. -/
def withSpan (s : State) (bytes : List Byte) : State :=
  s.setPort .a { s.ports.a with store := [bytes] }

/-- A forward span of window 5 with this lane: DATA, RUN set, number 6, song 7, heartbeat 9, position 1000, silent audio. -/
def spanWithLane (lane : List Byte) : List Byte :=
  withCheckWord ([0x5A, 0x80, 0, 6, 7, 9, 0, 0, 0, 0x03, 0xE8] ++ [byteOf lane.length] ++ lane ++ zeroBytes (8 - lane.length)
    ++ zeroBytes 6144)

/-- The span as its header says. -/
def heardSpan (lane : List Byte) : ForwardSpan :=
  { kind := .data, number := 6, run := true, mark := false, markOffset := 0, song := 7, heartbeat := 9, position := 1000,
    lane := lane, audio := List.replicate 2048 0 }

/-! ## Commands -/

/-- R155, R147: State.reset is what START_UP leaves of a part without power that holds no stored copy. -/
theorem test_reset_is_a_power_up : after (.startUp .powerUp .khz48) { State.reset with run := .off } = State.reset := by decide +kernel

/-- R1, R2: the first period keeps index 0, the second has index 1. -/
theorem test_window_index : (after .spanPeriodStart State.reset).clock.window = 0
    ∧ (after .spanPeriodStart (after .spanPeriodStart State.reset)).clock.window = 1 := by decide +kernel

/-- 12.1, window 3000: the first absent window scores 96, SUSPECT with cause ABSENT. -/
theorem test_first_absent_window : (after (.windowClose .a) (windowState (.on .a))).health.a.score = 96
    ∧ (after (.windowClose .a) (windowState (.on .a))).health.a.verdict = .suspect
    ∧ (after (.windowClose .a) (windowState (.on .a))).health.a.cause = .fault .absent := by decide +kernel

/-- 9.6: 84 records of 12 bytes; EVENTS with maximum 255 returns 7 and leaves 77. -/
theorem test_events_reply : (after (.events .b 1 [255])
      { State.reset with events := ⟨List.replicate 84 ⟨.mgmtError .a .broken 1, 0⟩, 2⟩ }).events
    = ⟨List.replicate 77 ⟨.mgmtError .a .broken 1, 0⟩, 2⟩ := by decide +kernel

/-- 7.6: LOCK {0, 0, OPEN} is refused in LINE with the key asserted, and taken with it released. -/
theorem test_lock_under_the_key :
    (after (.lock .b 1 [0, 0, 0] true) { State.reset with tables := { State.reset.tables with lock := ⟨6, false, .line⟩ } }).tables.lock
      = ⟨6, false, .line⟩
    ∧ (after (.lock .b 1 [0, 0, 0] false) { State.reset with tables := { State.reset.tables with lock := ⟨6, false, .line⟩ } }).tables.lock
      = ⟨0, false, .openMode⟩ := by decide +kernel

/-- 8.5: the WRITE of one CURVE point, tagged 0xF5, executed in span period 501 is answered by 9 reply bytes. -/
theorem test_write_reply :
    let t := after (.write .a 0xF5 [0x01, 0x00, 0x46, 0x01, 0xF4]) { State.reset with clock := { State.reset.clock with window := 501 } }
    t.ports.a.replies = [0xF4, 0xF5, 0x02, 0x03, 0x00, 0x01, 0xF5, 0x02, 0xF4] ∧ t.tables.staged.curve.getD 70 0 = 500
      ∧ t.tables.live.curve.getD 70 0 = 4011 := by decide +kernel

/-- 7.6: with channels 0 to 31 locked, the WRITE at entry 40 is taken and the WRITE at entry 5 is not. -/
theorem test_locked_write :
    let s := { State.reset with tables := { State.reset.tables with lock := ⟨6, false, .line⟩ } }
    (after (.write .a 1 [0, 0, 40, 4, 40, 40, 0]) s).tables.staged.route.getD 40 (factoryRouteEntry 0) = ⟨.pinB, some 40, some 40, 0⟩
      ∧ (after (.write .a 1 [0, 0, 5, 0, 5, 5, 0]) s).tables = s.tables := by decide +kernel

/-- 4.13: the reversal at position 96 of a fade of 256 mirrors it to 160 and records SWITCH_REVERSED toward A. -/
theorem test_reversal :
    let s := playing 0 (.fade .a)
    let t := after .reversal { s with ctrl := { s.ctrl with q := 96, len := 256, scheduled := some ⟨.reversal, .a, .failure⟩ },
                                      mixer := { s.mixer with owedStart := true } }
    t.ctrl.mode = .fade .b ∧ t.ctrl.q = 160 ∧ (t.events.records.map (·.body)).getLast? = some (.switchReversed .a 160) := by
  decide +kernel

/-- 5.8: with D_A = 1156, offset 24 of program span 7026 reads A's ring at the mark offset 20 of window 6990, slot 14. -/
theorem test_mark_read :
    let s := { playing 24 (.on .a) with clock := ⟨7026, true, 24, ⟨false, false⟩, false⟩ }
    let t := { s with mixer := { s.mixer with delays := ⟨1156, 256⟩ } }
    (t.ringTime .a).toNat / 32 = 6990 ∧ slotOffset (t.ringTime .a) = 20 ∧ 6990 % 64 = 14 := by decide +kernel

/-! ## Witnesses: for each statement with hypotheses, a concrete state and operands that meet them

The name after `meets_` is the statement's. Several theorems for one statement meet its clauses one by one, at the ends of their ranges. -/

theorem meets_StepRunsTheFrontCommand :
    ({ State.reset with pending := [.programSample] } : State).pending = .programSample :: [] ∧ State.reset.pending = [] := ⟨rfl, rfl⟩

theorem meets_LinesFollowTheState : exec .resetNAsserted State.reset = .next (after .resetNAsserted State.reset)
    ∧ exec (.spanComplete .a []) State.reset = .next (after (.spanComplete .a []) State.reset) := ⟨rfl, rfl⟩

theorem meets_StartUpLoadsAndResets : ({ State.reset with run := .off } : State).run ≠ .running
    ∧ ({ State.reset with run := .held } : State).run ≠ .running := by decide

theorem meets_HeldPartIgnoresCommands : ({ State.reset with run := .held } : State).run ≠ .running
    ∧ (∀ kind rate, Instr.windowClose .a ≠ .startUp kind rate) ∧ Instr.windowClose .a ≠ .resetNAsserted
    ∧ Instr.windowClose .a ≠ .powerLoss := ⟨by decide, fun _ _ => by simp, by decide, by decide⟩

theorem meets_InterruptedWriteLosesTheStore : (after (.save .a 1 []) State.reset).run = .running
    ∧ (after (.save .a 1 []) State.reset).store.writing = some ⟨factoryTables, openLock⟩ := by decide +kernel

theorem meets_SavedSettingsSurviveAPowerCycle : State.reset.CanServe .b ∧ State.reset.store.writing = none ∧ State.reset.TablesSound := by
  decide +kernel

/-- A request is taken with exactly the 194 free bytes it may need. -/
theorem meets_requests_at_the_reserve :
    (State.reset.setPort .a { State.reset.ports.a with replies := List.replicate 318 0 }).CanServe .a := by decide +kernel

theorem meets_PeriodStartSendsReturnSpans : State.reset.run = .running ∧ State.reset.clock.begun = false ∧ State.reset.NoRequests := by
  decide

theorem meets_PeriodStartSendsReturnSpans_again :
    let s := { playing 32 (.fade .a) with clock := ⟨5, true, 32, ⟨true, true⟩, true⟩ }
    s.run = .running ∧ (s.clock.begun = true → s.clock.made = 32 ∧ s.clock.closed = ⟨true, true⟩ ∧ s.clock.panelDone = true)
      ∧ s.NoRequests := by decide

/-- The same with a mark of song 9 in port A's ring at the next program sample. -/
def markState (made : Nat) (mode : Mode) : State :=
  let s := playing made mode
  let info : SlotMeta := { number := 0, position := 0, run := true, mark := true, markOffset := made, song := 9 }
  s.setPort .a { s.ports.a with ring := s.ports.a.ring.set 61 (.valid info []) }

/-- With a mark at the last sample and none before, with one before, and with none; with the countdown at 0 and above it. -/
theorem meets_LastSampleSendsTheProgramSpan : (markState 31 (.on .a)).run = .running ∧ (markState 31 (.on .a)).clock.begun = true
    ∧ (markState 31 (.on .a)).clock.made = 31 ∧ (markState 31 (.on .a)).sampleMark = some ⟨.a, 9⟩
    ∧ (markState 31 (.on .a)).mixer.firstMark = none ∧ (markState 31 (.on .b)).sampleMark = none
    ∧ (markState 31 (.on .a)).prog.countdown = 0 ∧ 0 < State.reset.prog.countdown := by decide +kernel

theorem meets_CountdownExpiresWithASyncSpan : State.reset.prog.countdown ≠ 1
    ∧ (let s := { playing 31 .idle with prog := ⟨1, 0⟩ }
       s.run = .running ∧ s.prog.countdown = 1 ∧ s.clock.begun = true ∧ s.clock.made < 32) := by decide

theorem meets_SampleIsTheWeightedMix :
    let s := { playing 1 (.fade .a) with ctrl := { resetController with mode := .fade .a, q := 30, len := 32 } }
    s.MidSpan ∧ (s.ctrl.mode.isTransition = true → s.ctrl.q + 1 ≠ s.ctrl.len) := by decide +kernel

/-- The first and the last sample of a span, the last with a mark. -/
theorem meets_SampleIsTheWeightedMix_ends : (playing 0 (.on .a)).Unanswered ∧ (markState 31 (.on .a)).Unanswered
    ∧ (markState 31 (.on .a)).NoRequests ∧ (markState 31 (.on .a)).sampleMark ≠ none
    ∧ (markState 31 (.on .a)).ctrl.mode.isTransition = false := by decide +kernel

theorem meets_SteadySampleCarriesOnePort : (playing 30 (.on .b)).MidSpan ∧ (playing 30 (.on .b)).ctrl.mode.isTransition = false
    ∧ (playing 30 (.on .b)).ctrl.sat ≤ 65535 := by decide +kernel

/-- Curve 1 has the shape, and curve 0 is linear. -/
theorem meets_CurvesRiseFromSilenceToUnity : factoryTables.curve.getD (65 * 1 + 0) 0 = 0
    ∧ (∀ i < 64, factoryTables.curve.getD (65 * 1 + i) 0 ≤ factoryTables.curve.getD (65 * 1 + (i + 1)) 0)
    ∧ factoryTables.curve.getD (65 * 1 + 64) 0 = 32768 ∧ ∀ i ≤ 64, factoryTables.curve.getD (65 * 0 + i) 0 = 512 * i := by
  decide +kernel

theorem meets_FirstSampleRestampsTheSpan : (playing 0 (.on .a)).AtSpanStart ∧ (playing 0 (.on .a)).mixer.owedStart = false
    ∧ (playing 0 (.on .a)).mixer.owedSwitch = false ∧ (playing 0 (.on .a)).mixer.owedApply = false
    ∧ (playing 0 (.on .a)).sampleMark = none := by decide +kernel

/-- A controller with this scheduled start, owed at the span start. -/
def scheduledState (mode : Mode) (start : ScheduledStart) : State :=
  { playing 0 mode with
    ctrl := { resetController with mode := mode, q := 5, len := 32, scheduled := some start }
    mixer := { resetMixer 256 with owedStart := true } }

theorem meets_ScheduledStartBeginsOrIsWithdrawn : (scheduledState .idle ⟨.opening, .a, .opening⟩).AtSpanStart
    ∧ (scheduledState .idle ⟨.opening, .a, .opening⟩).mixer.owedStart = true
    ∧ (scheduledState (.on .a) ⟨.fade, .b, .failure⟩).ctrl.mode = .on (Port.b).other
    ∧ (scheduledState (.on .a) ⟨.fade, .b, .failure⟩).ready .b = true := by decide

/-- The start is a cut, or its target is not ready, with the other port ready or not. -/
theorem meets_ScheduledStartBeginsOrIsWithdrawn_branches :
    let cut := withFields (scheduledState (.on .a) ⟨.fade, .b, .failure⟩) [(17, 0)]
    let lost : PerPort HealthRecord := PerPort.both { resetHealth with score := 255 }
    let lostOne : PerPort HealthRecord := ⟨{ resetHealth with score := 0, verdict := .good }, resetHealth⟩
    (cut.AtSpanStart ∧ cut.ready .b = true ∧ cut.tables.live.fadeSpans .failure = 0)
      ∧ (({ scheduledState .idle ⟨.opening, .b, .opening⟩ with health := lostOne } : State).ready .b = false
        ∧ ({ scheduledState .idle ⟨.opening, .b, .opening⟩ with health := lostOne } : State).ready .a = true)
      ∧ ({ scheduledState (.on .a) ⟨.fade, .b, .failure⟩ with health := lost } : State).ready .b = false
      ∧ ({ scheduledState (.on .a) ⟨.fade, .b, .failure⟩ with health := lost } : State).ready .a = false := by decide +kernel

theorem meets_ReversalTurnsTheFade : (scheduledState (.fade .a) ⟨.reversal, .a, .failure⟩).AtSpanStart
    ∧ (scheduledState (.fade .a) ⟨.reversal, .a, .failure⟩).mixer.owedStart = true
    ∧ (scheduledState (.fade .a) ⟨.reversal, .a, .failure⟩).ctrl.scheduled = some ⟨.reversal, .a, .failure⟩
    ∧ (scheduledState (.fade .a) ⟨.reversal, .a, .failure⟩).ctrl.mode = .fade .a := by decide

/-- A mark at a first sample with no record to fire, a scheduled start, and (pendingState) a pending record, at a span start. -/
theorem meets_FirstSampleRestampsTheSpan_answers : (markState 0 (.on .a)).sampleMark ≠ none
    ∧ (markState 0 (.on .a)).ctrl.pendingSwitch = none ∧ (markState 0 (.on .a)).mixer.owedStart = false
    ∧ (markState 0 (.on .a)).mixer.owedSwitch = false ∧ (scheduledState (.fade .a) ⟨.reversal, .a, .failure⟩).SwitchArmed
    ∧ (scheduledState (.fade .a) ⟨.reversal, .a, .failure⟩).ready .a = true := by decide +kernel

/-- Port A on air with this pending switch record, and a mark of song 9 in its ring at the next sample. -/
def pendingState (made : Nat) (trigger : Trigger) : State :=
  let s := markState made (.on .a)
  { s with
    ctrl := { s.ctrl with pendingSwitch := some ⟨.b, trigger, .request⟩ }
    mixer := { s.mixer with owedSwitch := true } }

theorem meets_PendingSwitchFiresAtItsTrigger_now : (pendingState 0 .now).SwitchArmed ∧ (pendingState 0 .now).clock.begun = true
    ∧ (pendingState 0 .now).mixer.earlyMark = none ∧ (pendingState 0 .now).clock.made = 0
    ∧ (pendingState 0 .now).mixer.owedSwitch = true := by decide +kernel

/-- At the first sample of a span, a later one, and the last. -/
theorem meets_PendingSwitchFiresAtItsTrigger_mark : ∀ made ∈ [0, 5, 31], (pendingState made (.atSong 9)).SwitchArmed
    ∧ (pendingState made (.atSong 9)).mixer.earlyMark = none ∧ (pendingState made (.atSong 9)).clock.made < 32
    ∧ (pendingState made (.atSong 9)).mixer.owedApply = false
    ∧ (pendingState made (.atSong 9)).markRead (Port.b).other = some 9 := by decide +kernel

/-- A fade from A to B of one span, one sample before its end. -/
def endingState (s : State) : State :=
  { s with ctrl := { s.ctrl with q := 31, len := 32 } }

/-- At the first sample of a span, a later one and the last, each with a mark. -/
theorem meets_FadeEndFollowsItsSteps : ∀ made ∈ [0, 30, 31],
    let s := endingState (markState made (.fade .a))
    s.Unanswered ∧ s.NoRequests ∧ s.sampleMark ≠ none ∧ s.ctrl.mode.target = some .b ∧ s.ctrl.q + 1 = s.ctrl.len := by decide +kernel

/-- A deferred skew beyond the delays' range, a deferred adoption, and a reversal left over, all at the last sample of a span. -/
theorem meets_FadeEndFollowsItsSteps_deferred :
    let s := endingState (playing 31 (.fade .a))
    let t : State := { s with
      align := { s.align with accepted := some 5000, deferred := true, transition := true }
      tables := { s.tables with apply := some ⟨.atMark, .deferred⟩ }
      ctrl := { s.ctrl with scheduled := some ⟨.reversal, .a, .failure⟩ } }
    t.Unanswered ∧ t.applyDeferred = true ∧ validate t.tables = none
      ∧ 2016 < (t.align.delays.get .b : Int) + 5000 := by decide +kernel

/-- The new on-air port has failed, and the other is ready or not. -/
theorem meets_FadeEndFollowsItsSteps_failed :
    let failed : HealthRecord := { resetHealth with score := 255 }
    let t : State := { endingState (playing 31 (.fade .a)) with health := ⟨(endingState (playing 31 (.fade .a))).health.a, failed⟩ }
    let u : State := { endingState (playing 31 (.fade .a)) with health := ⟨failed, failed⟩ }
    t.ready .b = false ∧ t.ctrl.auto = true ∧ t.ready .a = true ∧ u.ready .b = false ∧ u.ready .a = false ∧ u.ctrl.degraded = false := by
  decide +kernel

/-- R61, R106: at a fade end toward a port that has failed too, the adoption's record follows DEGRADED of step 6. -/
theorem test_adoption_record_follows_degraded :
    let failed : HealthRecord := { resetHealth with score := 255 }
    let s := endingState (playing 31 (.fade .a))
    let t : State := { s with health := ⟨failed, failed⟩, tables := { s.tables with apply := some ⟨.atMark, .deferred⟩ } }
    (after .programSample t).events.records.map (·.body) = t.events.records.map (·.body)
      ++ [.switchEnd .b 0, .degraded (some .b), .applyDone false false false] := by decide +kernel

theorem meets_AdoptionTakesAllTablesOrNone :
    let s := playing 0 (.on .a)
    let t : State := { s with tables := { s.tables with apply := some ⟨.now, .waiting⟩ }, mixer := { s.mixer with owedApply := true } }
    t.AtSpanStart ∧ t.mixer.owedApply = true ∧ t.tables.apply = some ⟨.now, .waiting⟩ := by decide

/-- An adoption at a mark at the first sample of a span, a later one and the last, on air and in a fade. -/
theorem meets_AdoptionTakesAllTablesOrNone_mark : ∀ made ∈ [0, 5, 31], ∀ mode ∈ [Mode.on .a, .fade .a],
    let s := markState made mode
    let t : State := { s with tables := { s.tables with apply := some ⟨.atSong 9, .waiting⟩ } }
    t.clock.made < 32 ∧ t.mixer.owedStart = false ∧ t.mixer.owedSwitch = false ∧ t.mixer.owedApply = false ∧ t.mixer.earlyMark = none
      ∧ t.markRead .a = some 9 ∧ t.ctrl.pendingSwitch = none := by decide +kernel

/-- With a NOW apply record at the span start at which a pending switch record fires: the adoption comes first, its record last (R106,
R109). -/
theorem meets_AdoptionTakesAllTablesOrNone_both :
    let s := pendingState 0 .now
    let t : State := { s with tables := { s.tables with apply := some ⟨.now, .waiting⟩ }, mixer := { s.mixer with owedApply := true } }
    t.AtSpanStart ∧ t.ctrl.mode.isTransition = false ∧ (after .adoption t).ctrl.mode = .fade .a
      ∧ (after .adoption t).tables.apply = none
      ∧ ((after .adoption t).events.records.getLast?.map (·.body)) = some (.applyDone false false false) := by decide +kernel

theorem meets_LatchedLockHoldsTheLiveTables :
    let s : State := { State.reset with tables := { State.reset.tables with lock := ⟨1, false, .latched⟩ } }
    lockEngaged s.tables.lock = true ∧ (∀ kind rate, Instr.adoption ≠ .startUp kind rate) ∧ Instr.adoption ≠ .powerLoss
      ∧ exec .adoption s = .next (after .adoption s) ∧ channelLocked s.tables.lock 56 = true :=
  ⟨by decide +kernel, fun _ _ => by simp, by decide, rfl, by decide⟩

/-- The windows' shared hypotheses, for ReceiverFollowsItsTables, WindowTracksSpanNumbers, WindowWritesOneSlot and LockedWindowIsJudged. -/
theorem meets_WindowDue : (windowState .idle).WindowDue .a ∧ (windowState (.on .b)).WindowDue .b := by decide

theorem meets_WindowLeavesTheOtherPortAlone : (windowState .idle).LaneQuiet .a :=
  fun _ h => nomatch (show WindowOutcome.absent = _ from h)

theorem meets_LosingLockForcesFailure :
    let s := windowState .idle
    let t := s.setPort .a { s.ports.a with absentRun := 7 }
    t.WindowDue .a ∧ t.ports.a.rx = .locked ∧ t.health.a.lockView = true ∧ t.outcome .a = .absent
      ∧ t.tables.live.nDown ≤ min 255 (t.ports.a.absentRun + 1) ∧ ¬ t.tables.live.nDown ≤ min 255 (s.ports.a.absentRun + 1) := by
  decide +kernel

theorem meets_CleanWindowsEarnGood_short : (windowState .idle).ports.a.rx = .locked
    ∧ (windowState .idle).health.a.verdict ≠ .recovering := by decide

theorem meets_OnAirFailureSchedulesFailover :
    let s := windowState (.on .a)
    let t := { s with health := { s.health with a := { s.health.a with score := 96 } } }
    t.WindowDue .a ∧ t.ready .a = true ∧ t.ports.a.rx = .locked ∧ t.outcome .a = .absent
      ∧ min 255 (t.ports.a.absentRun + 1) < t.tables.live.nDown ∧ 0 < t.tables.live.weight .absent
      ∧ t.tables.live.tFail ≤ min 255 (t.health.a.score + t.tables.live.weight .absent) ∧ t.ctrl.scheduled = none ∧ t.SwitchArmed := by
  decide +kernel

/-- A window that fails port A: an absent one at score 96 in this controller state, with this start and absent run. -/
def failingState (absentRun : Nat) (mode : Mode) (start : Option ScheduledStart) : State :=
  let s := windowState mode
  let t := s.setPort .a { s.ports.a with absentRun := absentRun }
  { t with health := { t.health with a := { t.health.a with score := 96 } }, ctrl := { t.ctrl with scheduled := start } }

/-- The cases of the controller's answer to a failure of port A: by its score, and by the loss of the lock. -/
theorem meets_OnAirFailureSchedulesFailover_cases :
    ∀ c ∈ [(0, Mode.idle, some ⟨.opening, .a, .opening⟩), (0, .idle, none), (0, .opening .a, none), (7, .opening .a, none),
        (0, .opening .b, none), (0, .on .a, none), (7, .on .a, none), (7, .on .b, some ⟨.fade, .a, .failure⟩), (0, .on .b, none),
        (0, .fade .b, none), (7, .fade .b, some ⟨.reversal, .b, .panel⟩), (0, .fade .a, some ⟨.reversal, .a, .failure⟩),
        (0, .fade .a, none)],
      let s := failingState c.1 c.2.1 c.2.2
      s.WindowDue .a ∧ s.outcome .a = .absent ∧ s.ports.a.rx = .locked ∧ s.health.a.verdict ≠ .failed
        ∧ (after (.windowClose .a) s).health.a.verdict = .failed := by decide +kernel

/-- A window that makes port A SUSPECT (an absent one at score 0) or GOOD (one of weight 0 from SUSPECT, or ending RECOVERING). -/
def readyState (weight : Nat) (verdict : Verdict) (mode : Mode) : State :=
  let s := withFields (windowState mode) [(0, weight)]
  { s with
    health := { s.health with a := { s.health.a with verdict := verdict, clean := 63 } }
    ctrl := { s.ctrl with degraded := true } }

/-- The second half of CleanWindowsEarnGood: every controller state, with the verdict that the window gives. -/
theorem meets_CleanWindowsEarnGood_ready :
    ∀ mode ∈ [Mode.idle, .opening .a, .opening .b, .on .a, .on .b, .fade .a, .fade .b],
      ∀ c ∈ [(96, Verdict.good, Verdict.suspect), (0, .suspect, .good), (0, .recovering, .good)],
        let s := readyState c.1 c.2.1 mode
        s.WindowDue .a ∧ s.outcome .a = .absent ∧ s.ports.a.rx = .locked ∧ s.ctrl.degraded = true ∧ s.ctrl.auto = true
          ∧ s.ctrl.scheduled = none ∧ s.health.a.verdict ≠ c.2.2 ∧ (after (.windowClose .a) s).health.a.verdict = c.2.2 := by
  decide +kernel

/-- The first report of a pair, and a second one without a lead. -/
theorem meets_ConfirmedSkewIsAccepted_gathering :
    let s := windowState .idle
    let t := { s with align := { s.align with leads := ⟨.unreported, .reported (some 0)⟩ } }
    s.WindowDue .a ∧ s.align.leads.get (Port.a).other = .unreported ∧ t.WindowDue .a ∧ t.outcome .a = .absent
      ∧ t.align.leads.get (Port.a).other = .reported (some 0) ∧ t.applyDeferred = false := by decide +kernel

/-- A LOCKED window of the preferred port with a condition of the revert missing. -/
theorem meets_RevertWaitsForHoldoff_reset :
    let s := windowState (.on .a)
    s.preferred = .a ∧ s.WindowDue .a ∧ s.outcome .a = .absent ∧ s.applyDeferred = false ∧ s.ctrl.mode ≠ .on s.preferred.other
      ∧ (after (.windowClose .a) s).ports.a.rx = .locked := by decide +kernel

theorem meets_StoppedPortIsRecentred :
    let s := windowState (.on .a)
    let t := { s with align := { s.align with stopped := ⟨63, 0⟩, delays := ⟨300, 256⟩ } }
    t.WindowDue .a ∧ t.align.transition = false ∧ 63 ≤ t.align.stopped.a ∧ t.outcome .a = .absent
      ∧ fillOf t.events.records + 128 ≤ 1024 ∧ t.align.accepted = none ∧ t.align.delays.a ≠ t.tables.live.guardDelay := by decide +kernel

/-- With skew 480 accepted, and with a span in the store whose check word does not match, the last valid one having RUN clear. -/
theorem meets_StoppedPortIsRecentred_check :
    let s := windowState (.on .a)
    let t := { s.setPort .a { s.ports.a with store := [[]], lastValid := some ⟨4, 0, false, 7⟩ } with
      align := { s.align with stopped := ⟨63, 0⟩, accepted := some 480 } }
    t.WindowDue .a ∧ t.raises .a .check = true ∧ (∀ r ∈ t.ports.a.lastValid, r.run = false) ∧ t.align.accepted ≠ none
      ∧ t.align.delays.a ≠ (max (64 : Int) (min 2016 (256 + max 0 480))).toNat := by decide +kernel

theorem meets_OldMessageTimesOut :
    let s := windowState .idle
    let old : Nat → State := fun age => s.setPort .a { s.ports.a with deframer := ⟨.body, [1], true, age, none⟩ }
    (old 64).WindowDue .a ∧ (old 63).WindowDue .a ∧ (old 64).ports.a.rx = .locked ∧ (old 64).outcome .a = .absent
      ∧ min 255 ((old 64).ports.a.absentRun + 1) < (old 64).tables.live.nDown ∧ (old 64).ports.a.deframer.busy = true := by decide +kernel

theorem meets_SamplingDebouncesTheContacts :
    let s := { windowState .idle with ctrl := { resetController with debounce := ⟨2, 4⟩ } }
    s.run = .running ∧ s.clock.begun = true ∧ s.clock.made = 32 ∧ s.clock.panelDone = false ∧ s.ctrl.debounce.a ≠ 3
      ∧ s.ctrl.debounce.b ≠ 3 := by decide

theorem meets_PressForcesAReadyPort :
    let s := { windowState (.on .b) with ctrl := { resetController with mode := .on .b, debounce := ⟨3, 2⟩ } }
    s.run = .running ∧ s.clock.begun = true ∧ s.clock.made = 32 ∧ s.clock.panelDone = false ∧ s.ctrl.debounce.get .a = 3
      ∧ s.ctrl.debounce.get .b ≠ 3 ∧ s.ready .a = true := by decide

/-- R78: both contacts pressed at one sampling, each press is refused and recorded. The two presses meet the hypotheses of
SamplingDebouncesTheContacts and PressForcesAReadyPort as well. -/
theorem test_both_pressed :
    let s := { windowState (.on .b) with ctrl := { resetController with mode := .on .b, debounce := ⟨3, 3⟩ } }
    let t := after (.panelSampling true true false) s
    s.ctrl.debounce.get .a = 3 ∧ s.ctrl.debounce.get (Port.a).other = 3
      ∧ (t.events.records.map (·.body)).drop s.events.records.length = [.panel .a true, .panel .b true]
      ∧ t.ctrl.pendingSwitch = none := by decide +kernel

/-- Port A holds this many requests and has 193 free reply bytes, one too few. -/
def waitingState (requests : Nat) : State :=
  let s := windowState .idle
  s.setPort .a { s.ports.a with requests := List.replicate requests [1, 0x0D], replies := List.replicate 319 0 }

/-- R125: the third message sets WAIT, and with four held the next is dropped. -/
theorem test_waiting_requests : (waitingState 0).clock.made = 32 ∧ 512 < (waitingState 0).ports.a.replies.length + 194
    ∧ (waitingState 0).ports.b.requests = []
    ∧ ((after (.ident .a 1 []) (waitingState 1)).ports.a.wait, (after (.ident .a 1 []) (waitingState 2)).ports.a.wait) = (false, true)
    ∧ (after (.ident .a 1 []) (waitingState 3)).ports.a.requests.length = 4
    ∧ (after (.ident .a 1 []) (waitingState 4)).ports.a.counters.dropped = 1 := by decide +kernel

/-- A message waits at port B, with reply room there, when a request comes to port A. -/
theorem meets_LaneRequestIsServed_robin :
    let s := windowState .idle
    let t := s.setPort .b { s.ports.b with requests := [[2, 0x0D]], replies := List.replicate 318 0 }
    t.clock.made = 32 ∧ t.ports.a.requests = [] ∧ t.ports.b.requests = [[2, 0x0D]] ∧ t.ports.b.replies.length + 194 ≤ 512 := by
  decide +kernel

/-- R92: a SWITCH at the mark of the next sample, commanded within a span, finds that sample made, and waits for a later mark. -/
theorem test_request_follows_the_samples :
    let t := after (.switch .b 1 [1, 1, 0]) (markState 31 (.on .a))
    t.clock.made = 32 ∧ t.ctrl.mode = .on .a ∧ t.ctrl.pendingSwitch = some ⟨.b, .atMark, .request⟩ := by decide +kernel

/-- 11.3: the last PROFILE field and, by the wrap, the first; then one past the range of PREFERRED (0 and 1), index 14. -/
theorem meets_WriteIsTestedInOrder : factoryTables.route.length = 64 ∧ factoryTables.curve.length = 260
    ∧ factoryTables.profile.length = 28 ∧ TableName.profile.lastIndex + 1 = 28
    ∧ (stagedWith .profile factoryTables ((List.range 2).map fun j => (27 + j) % 28) [0xFF, 0xFF, 0, 255]).isSome = true
    ∧ stagedWith .profile factoryTables ((List.range 1).map fun j => (14 + j) % 28) [0, 2] = none := by decide +kernel

/-- R136: with the lock engaged, AUTO off is refused while the flag is set, and OK once it is clear. -/
theorem test_auto_off_under_the_lock :
    let s := { State.reset with tables := { State.reset.tables with lock := ⟨1, false, .latched⟩ } }
    let clear := { s with ctrl := { s.ctrl with auto := false } }
    ((after (.auto .a 1 [0]) s).ctrl.auto, (after (.auto .a 1 [0]) s).ports.a.replies.getD 3 0xFF) = (true, statusCode .locked)
      ∧ ((after (.auto .a 1 [0]) clear).ctrl.auto, (after (.auto .a 1 [0]) clear).ports.a.replies.getD 3 0xFF)
        = (false, statusCode .ok) := by decide +kernel

theorem meets_DeframerInvertsFraming : resetDeframer.mode = .hunt ∧ 2 ≤ ([0xF4, 0xF5] : List Byte).length
    ∧ (List.replicate 96 (0xF5 : Byte)).length ≤ 96 ∧ 97 ≤ (List.replicate 97 (0xF4 : Byte)).length := by decide

/-- Two CURVE points written at the table's last index, the second by the wrap at index 0. -/
theorem meets_WriteThenReadReturnsTheEntries : State.reset.TablesSound ∧ State.reset.CanServe .a
    ∧ lockEngaged State.reset.tables.lock = false ∧ tableOfCode 1 = some .curve ∧ 0x01 * 256 + 0x03 ≤ TableName.curve.lastIndex
    ∧ (stagedWith .curve State.reset.tables.staged ((List.range 2).map fun j => (259 + j) % 260) [0x80, 0x00, 0x00, 0x07]).isSome = true := by
  decide +kernel

theorem meets_UnknownVerbsAndLengthsAreRefused : State.reset.CanServe .a ∧ (List.replicate 94 (0 : Byte)).length ≤ 94
    ∧ ((0 : Byte) = 0 ∨ 13 < (14 : Byte).toNat) := by decide +kernel

/-- The hypotheses of the five invariants, on a state whose step runs a command. -/
theorem meets_EveryStepKeeps : ({ State.reset with pending := [.spanComplete .a []] } : State).Sound
    ∧ step { State.reset with pending := [.spanComplete .a []] } = .next (after (.spanComplete .a []) State.reset) :=
  ⟨by decide +kernel, rfl⟩

/-! ### Windows that take a valid span

These come last: the two check words take the kernel some seconds each. -/

/-- The outcome of port A's window is the judgement of the span put in its store. -/
theorem withSpan_outcome (s : State) (bytes : List Byte) : (withSpan s bytes).outcome .a = judgeSpan bytes := rfl

/-- 11.1 and R157: the span without lane bytes is valid, and read by the layout. -/
theorem test_quiet_span : judgeSpan (spanWithLane []) = .valid (heardSpan []) := by decide +kernel

/-- The span that carries an IDENT request, tagged 0x21. -/
theorem test_ident_span : judgeSpan (spanWithLane [0xF4, 0x21, 0x0D, 0xF4]) = .valid (heardSpan [0xF4, 0x21, 0x0D, 0xF4]) := by
  decide +kernel

/-- A window of a TRAINING port with the sync count at L_SYNC and a DATA span makes the lock. -/
theorem meets_lock_entry :
    let s := windowState .idle
    let t := withSpan (s.setPort .a { s.ports.a with rx := .training, sync := 16 }) (spanWithLane [])
    t.WindowDue .a ∧ rxAfter t.tables.live .training 16 0 (t.outcome .a) = (.locked, 0) := by
  refine ⟨by decide, ?_⟩
  rw [withSpan_outcome, test_quiet_span]
  decide +kernel

/-- The clean-window witness: a RECOVERING port with clean count 63. -/
def recoveringState (bytes : List Byte) : State :=
  let s := windowState .idle
  withSpan { s with health := { s.health with a := { s.health.a with verdict := .recovering, clean := 63, score := 4 } } } bytes

/-- Port B on air, A preferred with REVERT AT_MARK and HOLDOFF 1. -/
def revertState (bytes : List Byte) : State :=
  withSpan (withFields (windowState (.on .b)) [(15, 1), (16, 1)]) bytes

/-- Port B has reported lead 0; 840 is the candidate, one window short of K_SKEW. -/
def skewState (mode : Mode) (bytes : List Byte) : State :=
  let s := windowState mode
  withSpan { s with align := { s.align with candidate := some 840, confirm := 7, leads := ⟨.unreported, .reported (some 0)⟩ } } bytes

/-- A window of port A that takes the quiet span, number 6 after 5 and with no earlier entry to compare with, raises no fault. -/
theorem quiet_window (s : State) (h : s.outcome .a = .valid (heardSpan [])) (hs : s.ports.a.store.isEmpty = false)
    (hn : s.ports.a.expected + 1 = 6) (hd : (s.judged .a).lastData = none) (hr : (s.judged .a).lastRunning = none)
    (hp : s.tables.live.pilot .a = none) : s.weightSum .a = 0 := by
  have hf : (heardSpan []).number = 6 := rfl
  have hk : (heardSpan []).kind = .data := rfl
  simp [State.weightSum, faultOrder, State.raises, State.taken, PerPort.get, h, hs, hd, hr, hp, hf, hk]
  exact fun _ hne => absurd hn.symm hne

/-- The hypotheses of CleanWindowsEarnGood, with the quiet span as these bytes. -/
def cleanHypotheses (bytes : List Byte) : Prop :=
    let s := recoveringState bytes
    s.WindowDue .a ∧ s.ports.a.rx = .locked ∧ s.health.a.verdict = .recovering ∧ s.weightSum .a = 0
      ∧ (s.taken .a .data).isSome = true ∧ s.tables.live.qOk ≤ min 255 (s.health.a.clean + 1)
      ∧ s.ctrl.mode = .idle ∧ s.LaneQuiet .a

theorem cleanHypotheses_of (bytes : List Byte) (h : judgeSpan bytes = .valid (heardSpan [])) : cleanHypotheses bytes := by
  have ho : (recoveringState bytes).outcome .a = .valid (heardSpan []) := h
  refine ⟨⟨rfl, rfl, rfl, rfl, rfl, rfl⟩, rfl, rfl, quiet_window _ ho rfl rfl rfl rfl rfl, ?_, ?_, rfl, ?_⟩
  · simp only [State.taken, ho]
    rfl
  · exact (by decide +kernel : (playing 32 .idle).tables.live.qOk ≤ min 255 (63 + 1))
  · exact fun f hf => by rw [WindowOutcome.valid.inj (hf.symm.trans ho)]; rfl

/-- The hypotheses of RevertWaitsForHoldoff, and HOLDOFF not yet reached under the factory value. -/
def revertHypotheses (bytes : List Byte) : Prop :=
    let s := revertState bytes
    s.preferred = .a ∧ s.WindowDue .a ∧ s.tables.live.revertAtMark = true ∧ s.ctrl.scheduled = none ∧ s.health.a.verdict = .good
      ∧ s.weightSum .a = 0 ∧ s.health.a.score - s.tables.live.decay < s.tables.live.tWarn
      ∧ s.tables.live.holdoff ≤ min 65535 (s.ctrl.holdoff + 1)
      ∧ ¬ (windowState (.on .b)).tables.live.holdoff ≤ min 65535 (s.ctrl.holdoff + 1)

theorem revertHypotheses_of (bytes : List Byte) (h : judgeSpan bytes = .valid (heardSpan [])) : revertHypotheses bytes := by
  have ho : (revertState bytes).outcome .a = .valid (heardSpan []) := h
  refine ⟨rfl, ?_, rfl, rfl, rfl, quiet_window _ ho rfl rfl rfl rfl rfl, ?_, ?_, ?_⟩
  · exact ⟨rfl, rfl, rfl, rfl, rfl, rfl⟩
  · exact (by decide +kernel : 0 - (revertState []).tables.live.decay < (revertState []).tables.live.tWarn)
  · exact (by decide +kernel : (revertState []).tables.live.holdoff ≤ min 65535 (0 + 1))
  · exact (by decide +kernel : ¬ (windowState (.on .b)).tables.live.holdoff ≤ min 65535 (0 + 1))

/-- The hypotheses of ConfirmedSkewIsAccepted, with skew 840. -/
def skewHypotheses (mode : Mode) (bytes : List Byte) : Prop :=
    let s := skewState mode bytes
    let lead := signed40 ((heardSpan []).position - BitVec.ofNat 40 (32 * s.clock.window.toNat))
    s.WindowDue .a ∧ s.weightSum .a = 0 ∧ (heardSpan []).run = true ∧ s.health.a.score - s.tables.live.decay < s.tables.live.tFail
      ∧ fillOf s.events.records + 64 ≤ 1024 ∧ s.align.leads.get .b = .reported (some 0) ∧ signed40 (BitVec.ofInt 40 (lead - 0)) = 840
      ∧ s.align.candidate = some 840 ∧ s.align.accepted ≠ some 840 ∧ s.tables.live.kSkew ≤ min 255 (s.align.confirm + 1)

theorem skewHypotheses_of (mode : Mode) (bytes : List Byte) (h : judgeSpan bytes = .valid (heardSpan [])) : skewHypotheses mode bytes := by
  have ho : (skewState mode bytes).outcome .a = .valid (heardSpan []) := h
  refine ⟨⟨rfl, rfl, rfl, rfl, rfl, rfl⟩, quiet_window _ ho rfl rfl rfl rfl rfl, rfl, ?_, ?_, rfl, ?_, rfl, ?_, ?_⟩
  · exact (by decide +kernel : 0 - State.reset.tables.live.decay < State.reset.tables.live.tFail)
  · exact (by decide +kernel : fillOf State.reset.events.records + 64 ≤ 1024)
  · exact (by decide +kernel : signed40 (BitVec.ofInt 40 (signed40 ((1000 : Position) - BitVec.ofNat 40 (32 * (5 : WindowIndex).toNat)) - 0)) = 840)
  · exact (by decide : (none : Option Int) ≠ some 840)
  · exact (by decide +kernel : State.reset.tables.live.kSkew ≤ min 255 (7 + 1))

theorem meets_CleanWindowsEarnGood : cleanHypotheses (spanWithLane []) := cleanHypotheses_of _ test_quiet_span

theorem meets_RevertWaitsForHoldoff : revertHypotheses (spanWithLane []) := revertHypotheses_of _ test_quiet_span

theorem meets_ConfirmedSkewIsAccepted : skewHypotheses .idle (spanWithLane []) ∧ skewHypotheses (.on .b) (spanWithLane [])
    ∧ skewHypotheses (.fade .b) (spanWithLane []) :=
  ⟨skewHypotheses_of _ _ test_quiet_span, skewHypotheses_of _ _ test_quiet_span, skewHypotheses_of _ _ test_quiet_span⟩

theorem meets_SpanIsJudgedWhole : (spanWithLane []).length = 6166 ∧ judgeSpan (spanWithLane []) = .valid (heardSpan []) :=
  ⟨by decide +kernel, test_quiet_span⟩

/-- A lane with a message of one byte, then an escape byte that a separator follows. -/
def faultyLane : List Byte := [0xF4, 1, 0xF4, 0xF5, 0xF4]

/-- The span that carries it. -/
theorem test_faulty_span : judgeSpan (spanWithLane faultyLane) = .valid (heardSpan faultyLane) := by decide +kernel

/-- R121, R122: it raises SHORT, then ESCAPE, and the last separator opens the next message. -/
theorem test_faulty_lane : (faultyLane.foldl (fun (x : Deframer × List DeframerOut) b =>
      ((deframeByte x.1 b).1, x.2 ++ (deframeByte x.1 b).2.toList)) (⟨.hunt, [], false, 0, some 6⟩, []))
    = (⟨.body, [], false, 0, some 6⟩, [.error .short, .error .escape]) := by decide

/-- LOCKED with the number following the continuity; LOCKED with a gap and a message in progress; and at the lock entry. -/
theorem meets_DeframerInvertsFraming_window :
    let s := windowState .idle
    let t := withSpan (s.setPort .a { s.ports.a with deframer := ⟨.hunt, [], false, 0, some 5⟩ }) (spanWithLane faultyLane)
    let u := withSpan (s.setPort .a { s.ports.a with deframer := ⟨.body, [1], true, 64, some 3⟩ }) (spanWithLane faultyLane)
    let v := withSpan (s.setPort .a { s.ports.a with rx := .training, sync := 16 }) (spanWithLane faultyLane)
    t.WindowDue .a ∧ u.WindowDue .a ∧ v.WindowDue .a ∧ t.outcome .a = .valid (heardSpan faultyLane)
      ∧ u.outcome .a = .valid (heardSpan faultyLane) ∧ v.outcome .a = .valid (heardSpan faultyLane) ∧ t.ports.a.rx = .locked
      ∧ v.tables.live.lSync ≤ v.ports.a.sync ∧ t.ports.a.deframer.continuity = some ((heardSpan faultyLane).number - 1)
      ∧ u.ports.a.deframer.continuity ≠ some ((heardSpan faultyLane).number - 1) ∧ u.ports.a.deframer.busy = true :=
  ⟨by decide, by decide, by decide, (withSpan_outcome _ _).trans test_faulty_span, (withSpan_outcome _ _).trans test_faulty_span,
    (withSpan_outcome _ _).trans test_faulty_span, rfl, (by decide +kernel : State.reset.tables.live.lSync ≤ 16), by decide, by decide,
    rfl⟩

/-- A message in progress through a window that takes the quiet span: LOCKED, its number following the continuity, and in STANDBY. -/
theorem meets_OldMessageTimesOut_valid :
    let s := windowState .idle
    let t := withSpan (s.setPort .a { s.ports.a with deframer := ⟨.body, [1], true, 64, some 5⟩ }) (spanWithLane [])
    let u := withSpan (s.setPort .a { s.ports.a with rx := .standby, deframer := ⟨.body, [1], true, 64, some 5⟩ }) (spanWithLane [])
    t.WindowDue .a ∧ u.WindowDue .a ∧ t.ports.a.rx = .locked ∧ t.ports.a.deframer.continuity = some ((heardSpan []).number - 1)
      ∧ t.outcome .a = .valid (heardSpan []) ∧ u.outcome .a = .valid (heardSpan []) ∧ u.ports.a.rx = .standby :=
  ⟨by decide, by decide, rfl, by decide, (withSpan_outcome _ _).trans test_quiet_span, (withSpan_outcome _ _).trans test_quiet_span, rfl⟩

theorem meets_LaneRequestIsServed :
    let s := withSpan (windowState .idle) (spanWithLane [0xF4, 0x21, 0x0D, 0xF4])
    s.WindowDue .a ∧ s.CanServe .a ∧ s.ports.a.rx = .locked ∧ s.outcome .a = .valid (heardSpan [0xF4, 0x21, 0x0D, 0xF4])
      ∧ (heardSpan [0xF4, 0x21, 0x0D, 0xF4]).lane = frameMessage (0x21 :: 0x0D :: [])
      ∧ s.ports.a.deframer.busy = false ∧ s.ports.a.deframer.body = [] ∧ s.ports.a.deframer.mode ≠ .escape :=
  ⟨by decide +kernel, by decide +kernel, rfl, (withSpan_outcome _ _).trans test_ident_span, by decide, rfl, rfl, by decide⟩

end Sys2Proof.Tests
end

/-! ### Buffers stay bounded (R4, R77, R92, R121, R124, R125, R128) -/

namespace Sys2Proof.Machine

/-- An operation that keeps each port's buffers, a count of samples within the period, and the debounce counts as they are. -/
theorem buffersBounded_of_frame {s t : State} (h : s.BuffersBounded)
    (hports : ∀ q, (s.ports.get q).Bounded → (t.ports.get q).Bounded) (hmade : t.clock.made ≤ 32)
    (hdebounce : t.ctrl.debounce = s.ctrl.debounce) : t.BuffersBounded := by
  obtain ⟨⟨ha, hb⟩, -, hd⟩ := h
  exact ⟨⟨hports .a ha, hports .b hb⟩, hmade, by rw [hdebounce]; exact hd⟩

theorem buffersBounded_of_control {s t : State} (hf : ControlFrame s t) (h : s.BuffersBounded) : t.BuffersBounded :=
  buffersBounded_of_frame h (fun q hq => by rw [hf.ports]; exact hq) (by rw [hf.clock]; exact h.2.1) hf.debounce

theorem buffersBounded_of_lane {p : Port} {s t : State} (hf : LaneFrame p s t)
    (hports : ∀ q, (s.ports.get q).Bounded → (t.ports.get q).Bounded) (h : s.BuffersBounded) : t.BuffersBounded :=
  buffersBounded_of_frame h hports (by rw [hf.rest]; exact h.2.1) (by rw [hf.rest])

/-- Every block at its reset value holds nothing in its buffers (R20, R129). -/
theorem buffersBounded_fresh (q : List Instr) (r : Rate) (x : InputLines) (t : Tables) (l : LockRecord) (c : Option StoredCopy)
    (rs : List EventRecord) (n : Nat) : (State.fresh q r x t l c rs n).BuffersBounded := by
  have hport : resetPort.Bounded := by decide
  exact ⟨⟨hport, hport⟩, Nat.zero_le _, Nat.zero_le _, Nat.zero_le _⟩

/-- A write of one port's record keeps the bounds of both when the new record is bounded. -/
theorem bounded_setPort {s : State} {p : Port} {x : ShowPort} (hx : (s.ports.get p).Bounded → x.Bounded) (q : Port)
    (h : (s.ports.get q).Bounded) : ((s.setPort p x).ports.get q).Bounded := by
  rw [setPort_ports]
  obtain rfl | rfl := Port.eq_or_other p q
  · rw [PerPort.get_set_self]; exact hx h
  · rw [PerPort.get_set_other]; exact h

/-- The oldest of two held spans makes room for the new one (R4). -/
theorem bounded_enterStore (bytes : List Byte) (x : ShowPort) (h : x.Bounded) : (enterStore bytes x).Bounded := by
  obtain ⟨hstore, hrest⟩ := h
  unfold enterStore
  split
  · next hroom =>
    refine ⟨?_, hrest⟩
    simp only [Config.elasticDepth] at hroom
    simp only [List.length_append, List.length_singleton]
    omega
  · refine ⟨?_, hrest⟩
    simp only [List.length_append, List.length_drop, List.length_singleton]
    omega

theorem bounded_sendReturnSpan (p q : Port) (s : State) (h : (s.ports.get q).Bounded) :
    ((sendReturnSpan p s).ports.get q).Bounded := by
  refine bounded_setPort (fun hp => ?_) q h
  obtain ⟨hstore, hring, hbody, hage, hreq, hrep⟩ := hp
  exact ⟨hstore, hring, hbody, hage, hreq, by simp only [List.length_drop]; omega⟩

/-- A debounce count stops at 4 (R77). -/
theorem debounceAfter_le (closed : Bool) (n : Nat) : debounceAfter closed n ≤ 4 := by
  unfold debounceAfter
  split
  · exact Nat.min_le_left _ _
  · exact Nat.zero_le _

/-- A panel sampling changes the debounce counts alone before it judges the presses (R77). -/
theorem buffersBounded_samplePanel (a b : Bool) (s : State) (h : s.BuffersBounded) : (samplePanel a b s).BuffersBounded := by
  obtain ⟨hports, hmade, -⟩ := h
  have hpress : ∀ (c : Prop) [Decidable c] (x : Port) (u : State), u.BuffersBounded →
      (if c then press x u else u).BuffersBounded :=
    fun c _ x u hu => ite_of (P := State.BuffersBounded) (buffersBounded_of_control (frame_press x u) hu) hu
  exact hpress _ _ _ (hpress _ _ _ ⟨hports, hmade, debounceAfter_le _ _, debounceAfter_le _ _⟩)

theorem buffersBounded_closeWindow (p : Port) (s : State) (h : s.BuffersBounded) : (closeWindow p s).BuffersBounded := by
  obtain ⟨t, hf, he⟩ := closeWindow_frame p s
  have hports := fun q => bounded_closeWindow p q s
  rw [he] at hports ⊢
  exact buffersBounded_of_frame h hports (by rw [hf.clock]; exact h.2.1) hf.debounce

theorem buffersBounded_makeSample (s : State) (hm : s.clock.made < 32) (h : s.BuffersBounded) :
    (makeSample s).BuffersBounded :=
  buffersBounded_of_frame h (fun q hq => by rw [(sample_makeSample s).ports]; exact hq) (by rw [makeSample_made]; exact hm)
    (sample_makeSample s).debounce

/-- Each operation that the commands are made of keeps the bounds of the buffers. -/
theorem buffersBounded_kept : Kept State.BuffersBounded where
  lines _ _ h := h
  pins _ _ h := h
  startUp _ _ _ _ := buffersBounded_fresh _ _ _ _ _ _ _ _
  assertReset s h := by unfold assertReset; cases s.run <;> exact h
  losePower s _ := buffersBounded_fresh s.pending s.rate s.pins factoryTables openLock (interruptWrite s.store).copy [] s.free
  completeWrite v s h := by
    unfold completeWrite
    split
    · exact h
    · split <;> exact h
  enterStore p b s h := buffersBounded_of_frame h (bounded_setPort (bounded_enterStore b _)) h.2.1 rfl
  begin s h := ⟨h.1, Nat.zero_le _, h.2.2⟩
  sendReturn p s h := buffersBounded_of_frame h (fun q => bounded_sendReturnSpan p q s) h.2.1 rfl
  sample s hm h := buffersBounded_makeSample s hm h
  window p s h := buffersBounded_closeWindow p s h
  panel a b s h := buffersBounded_samplePanel a b s h
  engine s h := buffersBounded_of_frame h (fun q => bounded_runEngine q s) (by rw [(engine_runEngine s).clock]; exact h.2.1)
    (engine_runEngine s).debounce
  scheduled s h := buffersBounded_of_control (frame_answerScheduled s) h
  now s h := buffersBounded_of_control (frame_answerNow s) h
  table s h := buffersBounded_of_control (frame_tableSpanStart s) h
  record b s h := buffersBounded_of_control (frame_recordAdoption b s) h
  early _ _ h := h
  markSwitch m s h := buffersBounded_of_control (frame_controllerMark m s) h
  markApply m s h := buffersBounded_of_control (frame_tableMark m s) h
  offer p m s h := buffersBounded_of_lane (lane_offerMessage p m s) (fun q => bounded_offerMessage p q m s) h
  long p s h := buffersBounded_of_lane (lane_raiseMgmtError p .long s) (fun q => bounded_raiseMgmtError p q .long s) h

/-- Settles O59: each operation that a command is made of keeps the bounds (`Kept`), so every step does. -/
theorem everyStepKeepsTheBuffersBounded : Obligations.EveryStepKeepsTheBuffersBounded := by
  unfold Obligations.EveryStepKeepsTheBuffersBounded
  intro s t h hstep
  exact buffersBounded_kept.step (fun _ _ hs => hs) s t h hstep

/-! ### The elastic store (R4) -/

/-- Settles O11: the command of a running part is the entry alone. -/
theorem spanEntersTheElasticStore : Obligations.SpanEntersTheElasticStore := by
  unfold Obligations.SpanEntersTheElasticStore
  intro s p bytes hrun
  exact whileRunning_of_running (f := fun s => s.setPort p (enterStore bytes (s.ports.get p))) hrun

/-! ### The start of a span period (R2, R17) -/

/-- A period that owes nothing is ended as it stands, and so is a part whose first period has not begun. -/
theorem endPeriod_of_owesNothing {s : State}
    (h : s.clock.begun = true → s.clock.made = 32 ∧ s.clock.closed = ⟨true, true⟩ ∧ s.clock.panelDone = true) :
    endPeriod s = s := by
  cases hb : s.clock.begun with
  | false => simp [endPeriod, hb]
  | true =>
    obtain ⟨hmade, hclosed, hpanel⟩ := h hb
    exact endPeriod_of_done hclosed hpanel hmade

/-- ON_AIR names the four cases of R17. -/
theorem onAirFlag_eq (m : Mode) (p : Port) :
    onAirFlag m p = decide (m = .on p ∨ m = .opening p ∨ m = .fade .a ∨ m = .fade .b) := by
  cases m with
  | idle => simp [onAirFlag]
  | opening x => cases x <;> cases p <;> decide
  | on x => cases x <;> cases p <;> decide
  | fade x => cases x <;> cases p <;> decide

/-- The switch answer owed to a span start is that of a NOW record (R71). -/
theorem spanMixer_owedSwitch (s : State) :
    (spanMixer s).owedSwitch = s.ctrl.pendingSwitch.any fun r => decide (r.trigger = .now) := by
  unfold spanMixer
  rcases s.ctrl.pendingSwitch with - | ⟨target, trigger, cause⟩
  · rfl
  · cases trigger <;> rfl

/-- The apply answer owed to a span start is that of a waiting NOW record (R104). -/
theorem applyWaitsNow_eq (s : State) :
    s.applyWaitsNow = s.tables.apply.any fun r => decide (r.trigger = .now ∧ r.phase = .waiting) := by
  unfold State.applyWaitsNow
  rcases s.tables.apply with - | ⟨trigger, phase⟩
  · rfl
  · cases trigger <;> cases phase <;> rfl

/-- The mixer at a span start, with the answers that the records of that moment are owed (R43, R57, R71, R104). -/
theorem spanMixer_eq (s : State) :
    spanMixer s = ⟨[], none, s.align.delays, s.ctrl.scheduled.isSome, s.ctrl.pendingSwitch.any fun r => decide (r.trigger = .now),
      s.tables.apply.any fun r => decide (r.trigger = .now ∧ r.phase = .waiting), none⟩ := by
  rw [← spanMixer_owedSwitch, ← applyWaitsNow_eq]
  rfl

/-- All that the start of a span period does: the clock and the mixer begin anew, and each port's return span, formed from the state
as it stands at the new window index, takes up to 8 bytes of its reply queue (R2, R17). -/
theorem startPeriod_eq (s : State) :
    startPeriod s = { s with
      clock := s.clock.next
      ports := ⟨{ s.ports.a with replies := s.ports.a.replies.drop 8 }, { s.ports.b with replies := s.ports.b.replies.drop 8 }⟩
      mixer := spanMixer s
      sentReturn := ⟨some (({ s with clock := s.clock.next } : State).returnSpan .a),
        some (({ s with clock := s.clock.next } : State).returnSpan .b)⟩ } :=
  rfl

/-- A return span, in the terms of R17. -/
theorem returnSpan_eq (s : State) (p : Port) :
    s.returnSpan p =
      { number := BitVec.ofNat 12 s.clock.window.toNat
        onAir := decide (s.ctrl.mode = .on p ∨ s.ctrl.mode = .opening p ∨ s.ctrl.mode = .fade .a ∨ s.ctrl.mode = .fade .b)
        wait := (s.ports.get p).wait
        fade := s.ctrl.mode.isTransition
        degraded := s.ctrl.degraded
        mode := s.ctrl.mode
        lane := (s.ports.get p).replies.take 8 } := by
  rw [← onAirFlag_eq]
  rfl

/-- Settles O12: the period owes nothing, so it ends as it stands, and the next one starts. -/
theorem periodStartSendsReturnSpans : Obligations.PeriodStartSendsReturnSpans := by
  unfold Obligations.PeriodStartSendsReturnSpans
  intro s hrun hdone w sent
  have hexec : exec .spanPeriodStart s = .next (startPeriod s).settleLines := by
    have h := whileRunning_of_running (f := nextPeriod) hrun
    rwa [nextPeriod, endPeriod_of_owesNothing hdone] at h
  have hsent : ∀ p, ({ s with clock := s.clock.next } : State).returnSpan p = sent p := fun p => returnSpan_eq _ p
  have hstart := startPeriod_eq s
  rw [hsent, hsent, spanMixer_eq] at hstart
  refine ⟨_, hexec, ?_⟩
  rw [hstart]
  refine ⟨rfl, rfl, fun p => ?_, fun _ => rfl⟩
  cases p <;> exact List.prefix_rfl

end Sys2Proof.Machine

/-! ### Forward spans are judged whole (R3, R156, R157) -/

namespace Sys2Proof.Machine

/-- A field inside a byte string, byte by byte. -/
theorem take_drop_eq_map_getD (l : List Byte) (i k : Nat) (h : i + k ≤ l.length) :
    (l.drop i).take k = (List.range k).map fun j => l.getD (i + j) 0 := by
  refine List.ext_getElem (by simp; omega) fun j h1 h2 => ?_
  simp only [List.length_map, List.length_range] at h2
  simp [List.getD_eq_getElem?_getD, show i + j < l.length by omega]

theorem natOfBytes_pair (x y : Byte) : natOfBytes [x, y] = x.toNat * 256 + y.toNat := by simp [natOfBytes]

/-- The bytes of a two-byte field, most significant first. -/
theorem natOfBytes_field_two (l : List Byte) (i : Nat) (h : i + 2 ≤ l.length) :
    natOfBytes ((l.drop i).take 2) = (l.getD i 0).toNat * 256 + (l.getD (i + 1) 0).toNat := by
  rw [take_drop_eq_map_getD l i 2 h]
  exact natOfBytes_pair _ _

/-- Bytes put side by side read as their number, most significant first. -/
theorem toNat_append_byte {n : Nat} (x : BitVec n) (y : Byte) : (x ++ y).toNat = x.toNat * 256 + y.toNat := by
  rw [BitVec.toNat_append, ← Nat.shiftLeft_add_eq_or_of_lt y.isLt, Nat.shiftLeft_eq]

/-- A 24-bit sample is its three bytes side by side (11.1). -/
theorem ofNat_three_bytes (x y z : Byte) : BitVec.ofNat 24 (natOfBytes [x, y, z]) = x ++ y ++ z := by
  apply BitVec.eq_of_toNat_eq
  rw [BitVec.toNat_ofNat, toNat_append_byte, toNat_append_byte]
  simp only [natOfBytes, List.foldl]
  have hx := x.isLt; have hy := y.isLt; have hz := z.isLt
  omega

/-- A 40-bit position is its five bytes side by side (11.1). -/
theorem ofNat_five_bytes (x y z u v : Byte) : BitVec.ofNat 40 (natOfBytes [x, y, z, u, v]) = x ++ y ++ z ++ u ++ v := by
  apply BitVec.eq_of_toNat_eq
  rw [BitVec.toNat_ofNat, toNat_append_byte, toNat_append_byte, toNat_append_byte, toNat_append_byte]
  simp only [natOfBytes, List.foldl]
  have hx := x.isLt; have hy := y.isLt; have hz := z.isLt; have hu := u.isLt; have hv := v.isLt
  omega

/-- `3 n` bytes are `n` samples, each of the three bytes in its place (11.1). -/
theorem samplesOfBytes_spec (n : Nat) (l : List Byte) (h : l.length = 3 * n) :
    (samplesOfBytes l).length = n
      ∧ ∀ i < n, (samplesOfBytes l).getD i 0 = l.getD (3 * i) 0 ++ l.getD (3 * i + 1) 0 ++ l.getD (3 * i + 2) 0 := by
  induction n generalizing l with
  | zero =>
    obtain rfl := List.length_eq_zero_iff.mp (by simpa using h)
    exact ⟨rfl, fun i hi => absurd hi (Nat.not_lt_zero i)⟩
  | succ n ih =>
    match l, h with
    | x :: y :: z :: rest, h =>
      obtain ⟨hlen, hget⟩ := ih rest (by simp only [List.length_cons] at h; omega)
      refine ⟨by simp only [samplesOfBytes, List.length_cons, hlen], fun i hi => ?_⟩
      cases i with
      | zero => exact ofNat_three_bytes x y z
      | succ i => exact hget i (by omega)

/-- The audio field of a span: 2048 samples from offset 20, three bytes each (11.1). -/
theorem audioField_spec (bytes : List Byte) (h : bytes.length = 6166) :
    (audioField bytes).length = 2048
      ∧ ∀ i < 2048, (audioField bytes).getD i 0
          = bytes.getD (20 + 3 * i) 0 ++ bytes.getD (21 + 3 * i) 0 ++ bytes.getD (22 + 3 * i) 0 := by
  obtain ⟨hlen, hget⟩ := samplesOfBytes_spec 2048 ((bytes.drop 20).take 6144) (by simp [h])
  refine ⟨hlen, fun i hi => ?_⟩
  have hbyte : ∀ m < 6144, ((bytes.drop 20).take 6144).getD m 0 = bytes.getD (20 + m) 0 := fun m hm => by
    simp only [List.getD_eq_getElem?_getD, List.getElem?_take, if_pos hm, List.getElem?_drop]
  rw [audioField, hget i hi, hbyte _ (by omega), hbyte _ (by omega), hbyte _ (by omega),
    show 20 + (3 * i + 1) = 21 + 3 * i by omega, show 20 + (3 * i + 2) = 22 + 3 * i by omega]

/-- The check word test of a span of the right length (R156). -/
theorem checkWordMatches_iff (bytes : List Byte) (h : bytes.length = 6166) :
    checkWordMatches bytes = true
      ↔ (bytes.getD 6164 0).toNat * 256 + (bytes.getD 6165 0).toNat = crc16 (bytes.take 6164) := by
  have htail : natOfBytes (bytes.drop 6164) = (bytes.getD 6164 0).toNat * 256 + (bytes.getD 6165 0).toNat := by
    rw [← natOfBytes_field_two bytes 6164 (by omega), List.take_of_length_le (by simp [h])]
  rw [checkWordMatches, htail]
  simp only [h, Config.spanBytes, BEq.rfl, Bool.true_and, beq_iff_eq]

/-- A span is valid exactly by its check word, its kind code and its lane count, and is then read by the layout (R3, R157). -/
theorem judgeSpan_valid_iff (bytes : List Byte) (f : ForwardSpan) :
    judgeSpan bytes = .valid f ↔ checkWordMatches bytes = true ∧ (bytes.getD 11 0).toNat ≤ 8
      ∧ ∃ kind, spanKindOfCode (bytes.getD 0 0) = some kind ∧ f = decodeSpan kind bytes := by
  unfold judgeSpan
  cases hcheck : checkWordMatches bytes with
  | false => simp
  | true =>
    cases hkind : spanKindOfCode (bytes.getD 0 0) with
    | none => simp
    | some kind =>
      generalize (bytes.getD 11 0).toNat = n
      by_cases hlane : n ≤ 8
      · simp [hlane, eq_comm]
      · simp [hlane]

/-- A taken span is never an absent window (R5). -/
theorem judgeSpan_ne_absent (bytes : List Byte) : judgeSpan bytes ≠ .absent := by
  unfold judgeSpan
  split
  · split
    · split <;> simp
    · simp
  · simp

/-- The lane of a valid span holds at most 8 bytes (R3, R16). -/
theorem length_lane_of_valid {bytes : List Byte} {f : ForwardSpan} (h : judgeSpan bytes = .valid f) : f.lane.length ≤ 8 := by
  obtain ⟨-, hlane, kind, -, rfl⟩ := (judgeSpan_valid_iff bytes f).mp h
  exact (List.length_take_le _ _).trans hlane

/-- Settles O39, by the validity test and then field by field: each field is its bytes side by side. -/
theorem spanIsJudgedWhole : Obligations.SpanIsJudgedWhole := by
  unfold Obligations.SpanIsJudgedWhole
  intro bytes hlen kind number
  have hkind : spanKindOfCode (bytes.getD 0 0) = kind := rfl
  refine ⟨?_, fun f hf => ?_⟩
  · simp only [judgeSpan_valid_iff, hkind, checkWordMatches_iff bytes hlen]
    constructor
    · rintro ⟨f, hcheck, hlane, k, hk, -⟩
      exact ⟨hcheck, by simp [hk], hlane⟩
    · rintro ⟨hcheck, hk, hlane⟩
      obtain ⟨k, hk⟩ := Option.ne_none_iff_exists'.mp hk
      exact ⟨_, hcheck, hlane, k, hk, rfl⟩
  · obtain ⟨-, -, k, hk, rfl⟩ := (judgeSpan_valid_iff bytes f).mp hf
    obtain ⟨haudio, hsample⟩ := audioField_spec bytes hlen
    have hposition : BitVec.ofNat 40 (natOfBytes ((bytes.drop 6).take 5))
        = bytes.getD 6 0 ++ bytes.getD 7 0 ++ bytes.getD 8 0 ++ bytes.getD 9 0 ++ bytes.getD 10 0 := by
      rw [take_drop_eq_map_getD bytes 6 5 (by omega)]
      exact ofNat_five_bytes _ _ _ _ _
    refine ⟨hkind.symm.trans hk, congrArg (BitVec.ofNat 12) (natOfBytes_field_two bytes 2 (by omega)), rfl, rfl,
      fun hmark => if_pos hmark, rfl, rfl, hposition, rfl, haudio, fun j hj k hk => hsample _ (by omega)⟩

end Sys2Proof.Machine

/-! ### What the controller and table memory leave of AUTO and of the program position (R54, R74) -/

namespace Sys2Proof.Machine

/-- The AUTO flag and the program position record stand. Only an AUTO request writes the one, and only the first sample of a program
span the other, so every operation of the controller, the alignment unit and table memory keeps both. -/
structure StandFrame (s t : State) : Prop where
  auto : t.ctrl.auto = s.ctrl.auto
  position : t.align.position = s.align.position

theorem StandFrame.refl (s : State) : StandFrame s s := ⟨rfl, rfl⟩

theorem StandFrame.trans {s t u : State} (h1 : StandFrame s t) (h2 : StandFrame t u) : StandFrame s u :=
  ⟨h2.auto.trans h1.auto, h2.position.trans h1.position⟩

/-- A frame that begins at a state whose two records are those of `s`. -/
theorem StandFrame.after {s t u : State} (h : StandFrame t u) (ha : t.ctrl.auto = s.ctrl.auto)
    (hp : t.align.position = s.align.position) : StandFrame s u :=
  .trans ⟨ha, hp⟩ h

theorem stand_ite {s t u : State} {c : Prop} [Decidable c] (ht : StandFrame s t) (hu : StandFrame s u) :
    StandFrame s (if c then t else u) :=
  ite_of ht hu

theorem stand_cancelPendingSwitch (s : State) : StandFrame s (cancelPendingSwitch s) := by
  unfold cancelPendingSwitch
  split <;> exact ⟨rfl, rfl⟩

theorem stand_createPendingSwitch (r : PendingSwitch) (s : State) : StandFrame s (createPendingSwitch r s) := by
  rw [createPendingSwitch_eq]
  exact ⟨rfl, rfl⟩

theorem stand_scheduleFailover (y : Port) (s : State) : StandFrame s (scheduleFailover y s) := by
  rw [scheduleFailover_eq]
  exact ⟨rfl, rfl⟩

theorem stand_setDegraded (s : State) : StandFrame s (setDegraded s) := stand_ite (.refl s) ⟨rfl, rfl⟩

theorem stand_recordClamp (b : Bool) (k : Int) (s : State) : StandFrame s (recordClamp b k s) := stand_ite ⟨rfl, rfl⟩ (.refl s)

theorem stand_setDelays (on : Port) (d : DelayPair) (s : State) : StandFrame s (setDelays on d s) := ⟨rfl, rfl⟩

theorem stand_applyRecentre (s : State) : StandFrame s (applyRecentre s) := by
  unfold applyRecentre
  dsimp only
  split
  · exact stand_setDelays _ _ s
  · exact (stand_setDelays _ _ s).trans (stand_recordClamp _ _ _)

theorem stand_applyOffAir (s : State) : StandFrame s (applyOffAir s) := by
  unfold applyOffAir
  split
  · exact .refl s
  · exact (stand_setDelays _ _ s).trans (stand_recordClamp _ _ _)

theorem stand_endNotice (s : State) : StandFrame s (endNotice s) := by
  unfold endNotice
  exact stand_ite ((stand_applyOffAir _).after rfl rfl) ⟨rfl, rfl⟩

theorem stand_abandonNotice (s : State) : StandFrame s (abandonNotice s) := by
  unfold abandonNotice
  exact stand_ite ((stand_applyRecentre _).after rfl rfl) ⟨rfl, rfl⟩

theorem stand_adopt (s : State) : StandFrame s (adopt s) := by
  unfold adopt
  dsimp only
  split <;> exact ⟨rfl, rfl⟩

theorem stand_recordAdoption (b s : State) : StandFrame s (recordAdoption b s) := stand_ite ⟨rfl, rfl⟩ (.refl s)

theorem stand_releaseDeferred (s : State) : StandFrame s (releaseDeferred s) := stand_ite (stand_adopt s) (.refl s)

theorem stand_meetApplyTrigger (s : State) : StandFrame s (meetApplyTrigger s) := by
  unfold meetApplyTrigger
  split
  · exact .refl s
  · exact stand_ite ⟨rfl, rfl⟩ (stand_adopt s)

theorem stand_tableMark (m : MarkReport) (s : State) : StandFrame s (tableMark m s) :=
  stand_ite (stand_meetApplyTrigger s) (.refl s)

theorem stand_openingChoice (p : Port) (s : State) : StandFrame s (openingChoice p s) := by
  unfold openingChoice
  split
  · exact ⟨rfl, rfl⟩
  · exact stand_ite ⟨rfl, rfl⟩ (.refl s)

theorem stand_openingRechoice (p : Port) (s : State) : StandFrame s (openingRechoice p s) :=
  stand_ite (stand_openingChoice p s) (.refl s)

theorem stand_withdrawStart (s : State) : StandFrame s (withdrawStart s) := by
  unfold withdrawStart
  split
  · exact .refl s
  · refine StandFrame.trans (t := { s with ctrl := { s.ctrl with scheduled := none } }) ⟨rfl, rfl⟩ ?_
    dsimp only
    split
    · exact stand_openingRechoice _ _
    · exact .refl _
    · exact stand_ite (.refl _) (stand_setDegraded _)
    · exact stand_ite (.refl _) (stand_setDegraded _)

theorem stand_convertReversal (s : State) : StandFrame s (convertReversal s) := by
  unfold convertReversal
  split <;> exact ⟨rfl, rfl⟩

theorem stand_beginTransition (target : Port) (cause : SwitchCause) (s : State) :
    StandFrame s (beginTransition target cause s) := by
  unfold beginTransition
  exact stand_ite ((stand_convertReversal _).after rfl rfl) ⟨rfl, rfl⟩

theorem stand_firePendingSwitch (r : PendingSwitch) (s : State) : StandFrame s (firePendingSwitch r s) := by
  unfold firePendingSwitch
  exact stand_ite ((stand_beginTransition _ _ _).after rfl rfl) (stand_cancelPendingSwitch s)

theorem stand_controllerMark (m : MarkReport) (s : State) : StandFrame s (controllerMark m s) := by
  unfold controllerMark
  split
  · exact stand_firePendingSwitch _ s
  · exact .refl s

theorem stand_resolveDegraded (y : Port) (s : State) : StandFrame s (resolveDegraded y s) :=
  stand_ite (.refl s) (stand_scheduleFailover y s)

theorem stand_onAirFailed (x : Port) (s : State) : StandFrame s (onAirFailed x s) :=
  stand_ite (stand_resolveDegraded _ s) (stand_setDegraded s)

theorem stand_incomingFailed (x : Port) (s : State) : StandFrame s (incomingFailed x s) :=
  stand_ite (.refl s) (stand_ite ⟨rfl, rfl⟩ (stand_setDegraded s))

theorem stand_abandonOpening (x : Port) (s : State) : StandFrame s (abandonOpening x s) := by
  unfold abandonOpening
  refine StandFrame.trans (StandFrame.trans (StandFrame.trans ?_ (stand_releaseDeferred _)) (stand_recordAdoption _ _))
    (stand_openingRechoice _ _)
  exact (stand_abandonNotice _).after rfl rfl

theorem stand_clearDegraded (s : State) : StandFrame s (clearDegraded s) := ⟨rfl, rfl⟩

theorem stand_respondVerdict (p : Port) (old new : Verdict) (s : State) : StandFrame s (respondVerdict p old new s) := by
  have hs := StandFrame.refl s
  unfold respondVerdict
  split
  · exact stand_ite (stand_ite (stand_withdrawStart s) hs) (stand_ite (stand_openingChoice p s) hs)
  · exact stand_ite (stand_abandonOpening _ s) hs
  · exact stand_ite (stand_ite (stand_onAirFailed _ s) (stand_ite (stand_clearDegraded s) hs))
      (stand_ite (stand_ite (stand_withdrawStart s) hs) (stand_ite (stand_resolveDegraded p s) hs))
  · exact stand_ite (stand_ite (stand_withdrawStart s) hs)
      (stand_ite (stand_incomingFailed _ s) (stand_ite (stand_clearDegraded s) hs))

theorem stand_resetHoldoff (s : State) : StandFrame s (resetHoldoff s) := by
  unfold resetHoldoff cancelRevert
  split
  · exact (stand_cancelPendingSwitch _).after rfl rfl
  · exact ⟨rfl, rfl⟩

theorem stand_takeVerdictChange (p : Port) (old new : Verdict) (s : State) : StandFrame s (takeVerdictChange p old new s) := by
  unfold takeVerdictChange
  exact (stand_respondVerdict p old new s).trans (stand_ite (stand_resetHoldoff _) (.refl _))

theorem stand_takeNotice (p : Port) (v : Verdict) (s : State) : StandFrame s (takeNotice p v s) := by
  unfold takeNotice
  exact stand_ite (stand_ite (stand_ite ((stand_createPendingSwitch _ _).after rfl rfl) ⟨rfl, rfl⟩) (stand_resetHoldoff s))
    (.refl s)

theorem stand_examineOnAir (y : Port) (s : State) : StandFrame s (examineOnAir y s) :=
  stand_ite (stand_clearDegraded s)
    (stand_ite (.refl s) (stand_ite (stand_scheduleFailover _ s) (stand_setDegraded s)))

theorem stand_endTransition (y : Port) (s : State) : StandFrame s (endTransition y s) := by
  unfold endTransition
  have hnotice := (stand_endNotice (offerEvent (.switchEnd y s.ctrl.sat)
    { s with ctrl := { s.ctrl with mode := .on y, q := 0, len := 0 } })).after (s := s) rfl rfl
  have hreleased := hnotice.trans (stand_releaseDeferred _)
  exact (((stand_convertReversal _).after rfl rfl).trans (stand_examineOnAir _ _)).after hreleased.auto hreleased.position

theorem stand_sampleStep5 (s : State) : StandFrame s (sampleStep5 s) := by
  refine stand_ite ?_ (.refl s)
  unfold fadeEnd
  split
  · exact .refl s
  · exact stand_endTransition _ s

theorem stand_handVerdict (p : Port) (h : HealthRecord) (s : State) : StandFrame s (handVerdict p h s) := by
  unfold handVerdict
  exact stand_ite ⟨rfl, rfl⟩ ((stand_takeVerdictChange _ _ _ _).after rfl rfl)

theorem stand_evaluateWindow (p : Port) (r : WindowReport) (s : State) : StandFrame s (evaluateWindow p r s) :=
  (stand_handVerdict p _ s).trans (stand_takeNotice _ _ _)

theorem stand_takeHealthReport (p : Port) (r : WindowReport) (s : State) : StandFrame s (takeHealthReport p r s) := by
  have hforced : StandFrame s
      (if r.changed && (s.health.get p).lockView then handVerdict p (forcedFailure r.rx (s.health.get p)) s else s) :=
    stand_ite (stand_handVerdict p _ s) (.refl s)
  unfold takeHealthReport
  split
  · refine StandFrame.trans ?_ (stand_evaluateWindow p r _)
    exact stand_ite ⟨rfl, rfl⟩ (.refl s)
  all_goals exact hforced

end Sys2Proof.Machine

/-! ### Counters, records and the deframer in a window (R6, R16, R19, R123) -/

namespace Sys2Proof.Machine

/-- Records offered one group after another. -/
theorem recording_append (s : State) (xs ys : List EventBody) :
    s.recording (xs ++ ys) = ys.foldl (fun q b => q.offer ⟨b, s.stamp⟩) (s.recording xs) := by
  unfold State.recording
  rw [List.foldl_append]
  rfl

/-- An offer keeps the records held, in their order, at the front (R145). -/
theorem records_prefix_offer (q : EventQueue) (r : EventRecord) : q.records <+: (q.offer r).records := by
  unfold EventQueue.offer
  split
  · exact List.prefix_append _ _
  · exact List.prefix_rfl

theorem Offered.records_prefix {s t : State} (h : s.Offered t) : s.events.records <+: t.events.records := by
  obtain ⟨rs, hrs⟩ := h
  rw [hrs]
  clear hrs
  generalize s.events = q
  induction rs generalizing q with
  | nil => exact List.prefix_rfl
  | cons r rs ih => exact (records_prefix_offer q r).trans (ih _)

/-- A management error changes one error counter and offers one record (R125). -/
theorem raiseMgmtError_eq (p : Port) (k : MgmtErrorKind) (s : State) :
    raiseMgmtError p k s = { s with
      ports := s.ports.set p { s.ports.get p with counters := (s.ports.get p).counters.bump k }
      events := s.recording [.mgmtError p k (min 16777215 (((s.ports.get p).counters.bump k).ofKind k))] } :=
  rfl

/-- The first five counters of R19 are those of a window, and the other six those of the management errors. -/
structure Counters.SameWindows (c d : Counters) : Prop where
  taken : c.taken = d.taken
  checkFailures : c.checkFailures = d.checkFailures
  absentWindows : c.absentWindows = d.absentWindows
  overruns : c.overruns = d.overruns
  sequenceFaults : c.sequenceFaults = d.sequenceFaults

theorem sameWindows_bump (c : Counters) (k : MgmtErrorKind) : (c.bump k).SameWindows c := by
  cases k <;> exact ⟨rfl, rfl, rfl, rfl, rfl⟩

theorem Counters.SameWindows.trans {c d e : Counters} (h1 : c.SameWindows d) (h2 : d.SameWindows e) : c.SameWindows e :=
  ⟨h1.taken.trans h2.taken, h1.checkFailures.trans h2.checkFailures, h1.absentWindows.trans h2.absentWindows,
    h1.overruns.trans h2.overruns, h1.sequenceFaults.trans h2.sequenceFaults⟩

/-- The port `x` is `y` but for its deframer and the counters of the management errors. -/
structure QuietPort (x y : ShowPort) : Prop where
  receiver : ReceiverOf x y
  requests : x.requests = y.requests
  wait : x.wait = y.wait
  counts : x.counters.SameWindows y.counters

theorem QuietPort.trans {x y z : ShowPort} (h1 : QuietPort x y) (h2 : QuietPort y z) : QuietPort x z :=
  ⟨h1.receiver.trans h2.receiver, h1.requests.trans h2.requests, h1.wait.trans h2.wait, h1.counts.trans h2.counts⟩

/-- A step of the deframer that completes no message: within the lane frame, and the port keeps its queue. -/
structure SilentFrame (p : Port) (s t : State) : Prop where
  lane : LaneFrame p s t
  port : QuietPort (t.ports.get p) (s.ports.get p)

theorem SilentFrame.of_lane {p : Port} {s t : State} (h : LaneFrame p s t)
    (hrequests : (t.ports.get p).requests = (s.ports.get p).requests) (hwait : (t.ports.get p).wait = (s.ports.get p).wait)
    (hcounts : (t.ports.get p).counters.SameWindows (s.ports.get p).counters) : SilentFrame p s t :=
  ⟨h, h.receiver, hrequests, hwait, hcounts⟩

theorem SilentFrame.refl (p : Port) (s : State) : SilentFrame p s s :=
  .of_lane (.refl p s) rfl rfl ⟨rfl, rfl, rfl, rfl, rfl⟩

theorem SilentFrame.trans {p : Port} {s t u : State} (h1 : SilentFrame p s t) (h2 : SilentFrame p t u) : SilentFrame p s u :=
  ⟨h1.lane.trans h2.lane, h2.port.trans h1.port⟩

theorem silent_offerEvent (p : Port) (b : EventBody) (s : State) : SilentFrame p s (offerEvent b s) :=
  .of_lane (lane_offerEvent p b s) rfl rfl ⟨rfl, rfl, rfl, rfl, rfl⟩

theorem silent_raiseMgmtError (p : Port) (k : MgmtErrorKind) (s : State) : SilentFrame p s (raiseMgmtError p k s) := by
  refine .of_lane (lane_raiseMgmtError p k s) ?_ ?_ ?_ <;> rw [raiseMgmtError_eq] <;> dsimp only <;> rw [PerPort.get_set_self]
  exact sameWindows_bump _ k

theorem silent_setDeframer (p : Port) (d : Deframer) (s : State) : SilentFrame p s (s.setDeframer p d) := by
  refine .of_lane (lane_setPort p s d _ _ _) ?_ ?_ ?_ <;> unfold State.setDeframer <;> rw [setPort_ports, PerPort.get_set_self]
  exact ⟨rfl, rfl, rfl, rfl, rfl⟩

/-- A step that gives no message is silent. -/
theorem silent_stepDeframer (p : Port) (f : Deframer → Deframer × Option DeframerOut) (s : State)
    (hf : ∀ m, (f (s.ports.get p).deframer).2 ≠ some (.message m)) : SilentFrame p s (stepDeframer p f s) := by
  unfold stepDeframer applyOut
  dsimp only
  split
  · exact silent_setDeframer p _ s
  · exact (silent_setDeframer p _ s).trans (silent_raiseMgmtError p _ _)
  · next m hm => exact absurd hm (hf m)

theorem breakLane_no_message (d : Deframer) (m : List Byte) : (breakLane d).2 ≠ some (.message m) := by
  unfold breakLane
  cases d.busy <;> simp

theorem silent_indicateBroken (p : Port) (s : State) : SilentFrame p s (stepDeframer p indicateBroken s) :=
  silent_stepDeframer p _ s fun m => breakLane_no_message _ m

theorem silent_compareContinuity (p : Port) (n : SpanNumber) (s : State) :
    SilentFrame p s (stepDeframer p (compareContinuity · n) s) := by
  refine silent_stepDeframer p _ s fun m => ?_
  unfold compareContinuity
  dsimp only
  split
  · exact breakLane_no_message _ m
  · simp

theorem silent_ageStep (p : Port) (s : State) : SilentFrame p s (stepDeframer p ageStep s) := by
  refine silent_stepDeframer p _ s fun m => ?_
  unfold ageStep
  split
  · split <;> simp
  · simp

theorem silent_recordTransition (p : Port) (old new : RxState) (s : State) : SilentFrame p s (recordTransition p old new s) := by
  unfold recordTransition
  split
  · exact .refl p s
  · dsimp only
    split
    · exact (silent_offerEvent p _ s).trans (silent_indicateBroken p _)
    · exact silent_offerEvent p _ s

/-- The lane's step of a window with no lane byte is silent (R16). -/
theorem silent_handWindowLane (p : Port) (rx : RxState) (o : WindowOutcome) (s : State)
    (h : ∀ f, o = .valid f → f.lane = []) : SilentFrame p s (handWindowLane p rx o s) := by
  unfold handWindowLane
  split
  · split
    · exact silent_indicateBroken p s
    · split
      · next f hused =>
        have hlane : f.lane = [] := by
          unfold usedSpan at hused
          split at hused
          · split at hused
            · injection hused with hused
              exact hused ▸ h _ rfl
            · cases hused
          · cases hused
        unfold handLane
        rw [hlane]
        exact silent_compareContinuity p f.number s
      · exact .refl p s
  · exact .refl p s

/-! ### A window close as its steps (R5) -/

/-- The two forms of a window's outcome agree. -/
theorem outcome_eq (s : State) (p : Port) : s.outcome p = windowOutcome (s.ports.get p).store := by
  unfold State.outcome windowOutcome
  cases (s.ports.get p).store <;> rfl

/-- Port p after steps 1 to 3 of its next window (R5). -/
def State.portAfterWindow (s : State) (p : Port) : ShowPort :=
  portAfter s.live s.clock.window (s.outcome p) (s.ports.get p)

/-- The state in which a window of port p hands on its reports: the port after steps 1 to 3, and the records of its change. -/
def State.transitioned (s : State) (p : Port) : State :=
  recordTransition p (s.ports.get p).rx (s.portAfterWindow p).rx (s.setPort p (s.portAfterWindow p))

/-- A window close of port p before its lane is handed over: steps 1 to 4 (R5). -/
def State.reported (s : State) (p : Port) : State :=
  let report := reportFor s.live p s.clock.window (s.outcome p) (s.ports.get p) (s.portAfterWindow p)
  takeAlignmentReport p report ((s.portAfterWindow p).ring.getD (ringIndex s.clock.window) .empty)
    (takeHealthReport p report (s.transitioned p))

/-- A window close is its steps 1 to 4, the lane, the deframer's age, and the mark that it is closed (R5, R124). -/
theorem closeWindow_eq (p : Port) (s : State) :
    closeWindow p s =
      let u := stepDeframer p ageStep (handWindowLane p (s.portAfterWindow p).rx (s.outcome p) (s.reported p))
      { u with clock := { u.clock with closed := u.clock.closed.set p true } } := by
  unfold State.reported State.transitioned State.portAfterWindow
  rw [outcome_eq]
  rfl

theorem reported_ports (s : State) (p : Port) : (s.reported p).ports = (s.transitioned p).ports := by
  unfold State.reported
  dsimp only
  rw [(frame_takeAlignmentReport _ _ _ _).ports, takeHealthReport_ports]

theorem offered_reported (s : State) (p : Port) : (s.transitioned p).Offered (s.reported p) :=
  Offered.trans (window_takeHealthReport p _ _).offered (frame_takeAlignmentReport _ _ _ _).offered

theorem reported_auto (s : State) (p : Port) : (s.reported p).ctrl.auto = s.ctrl.auto := by
  unfold State.reported
  dsimp only
  rw [takeAlignmentReport_ctrl, (stand_takeHealthReport _ _ _).auto]
  unfold State.transitioned
  rw [(lane_recordTransition p _ _ _).rest]
  rfl

/-- The port after the reports of its window is that of steps 1 to 3, but for the deframer and the error counters. -/
theorem quietPort_reported (s : State) (p : Port) : QuietPort ((s.reported p).ports.get p) (s.portAfterWindow p) := by
  have h := silent_recordTransition p (s.ports.get p).rx (s.portAfterWindow p).rx (s.setPort p (s.portAfterWindow p))
  rw [reported_ports, ← PerPort.get_set_self s.ports p (s.portAfterWindow p)]
  exact h.port

/-- With no lane byte, the whole of a window close after its reports is silent. -/
theorem closeWindow_silent {s : State} {p : Port} (h : s.LaneQuiet p) :
    ∃ u, SilentFrame p (s.reported p) u
      ∧ closeWindow p s = { u with clock := { u.clock with closed := u.clock.closed.set p true } } :=
  ⟨_, (silent_handWindowLane p _ _ _ h).trans (silent_ageStep p _), closeWindow_eq p s⟩

/-- With no lane byte, port p after its window is that of steps 1 to 3, but for the deframer and the error counters. -/
theorem closeWindow_quietPort {s : State} {p : Port} (h : s.LaneQuiet p) :
    QuietPort ((closeWindow p s).ports.get p) (s.portAfterWindow p) := by
  obtain ⟨u, hu, hclose⟩ := closeWindow_silent h
  rw [hclose]
  exact hu.port.trans (quietPort_reported s p)

/-- A window close is within the window frame, but for the mark that the window is closed. -/
theorem closeWindow_within (p : Port) (s : State) : WindowFrame p s { closeWindow p s with clock := s.clock } := by
  obtain ⟨t, hf, he⟩ := closeWindow_frame p s
  rw [he, ← hf.clock]
  exact hf

theorem closeWindow_clock (p : Port) (s : State) :
    (closeWindow p s).clock = { s.clock with closed := s.clock.closed.set p true } := by
  obtain ⟨t, hf, he⟩ := closeWindow_frame p s
  rw [he, ← hf.clock]

/-- No window close changes AUTO. -/
theorem closeWindow_auto (p : Port) (s : State) : (closeWindow p s).ctrl.auto = s.ctrl.auto := by
  rw [closeWindow_eq]
  dsimp only
  rw [(lane_stepDeframer p ageStep _).rest, (lane_handWindowLane p _ _ _).rest]
  exact reported_auto s p

/-- With the period's samples made, the window not yet closed and no request waiting, the command is the close and the engine's
look. -/
theorem exec_windowClose {s : State} {p : Port} (h : s.WindowDue p) :
    exec (.windowClose p) s = .next (runEngine (closeWindow p s)).settleLines := by
  obtain ⟨hrun, hbegun, hmade, hclosed, -⟩ := h
  have hexec := whileRunning_of_running (f := fun s => closeAndServe p (atWindow p s)) hrun
  rwa [atWindow_of_open hbegun hclosed hmade] at hexec

theorem noRequests_get {s : State} (h : s.NoRequests) (q : Port) : (s.ports.get q).requests = [] := by
  cases q
  · exact h.1
  · exact h.2

theorem windowDue_requests {s : State} {p : Port} (h : s.WindowDue p) (q : Port) : (s.ports.get q).requests = [] := by
  obtain ⟨-, -, -, -, hnone⟩ := h
  exact noRequests_get hnone q

theorem runEngine_of_noRequests {s : State} (h : ∀ q, (s.ports.get q).requests = []) : runEngine s = s :=
  runEngine_of_empty (by simp [State.waitingRequests, h])

/-- A window after which port p's queue is as empty as before leaves the engine nothing to serve. -/
theorem runEngine_closeWindow {s : State} {p : Port} (h : s.WindowDue p)
    (hp : ((closeWindow p s).ports.get p).requests = (s.ports.get p).requests) : runEngine (closeWindow p s) = closeWindow p s := by
  refine runEngine_of_noRequests fun q => ?_
  obtain rfl | rfl := Port.eq_or_other p q
  · rw [hp]; exact windowDue_requests h _
  · rw [(closeWindow_within p s).otherPort]; exact windowDue_requests h _

/-- A window that brings no lane byte leaves the engine nothing to serve. -/
theorem runEngine_closeWindow_quiet {s : State} {p : Port} (h : s.WindowDue p) (hq : s.LaneQuiet p) :
    runEngine (closeWindow p s) = closeWindow p s :=
  runEngine_closeWindow h (closeWindow_quietPort hq).requests

/-- The receiver's record, the span numbers and the ring of port p after its window are those of steps 1 to 3, whatever its lane
brings. -/
structure ReceivedAs (x y : ShowPort) : Prop where
  rx : x.rx = y.rx
  sync : x.sync = y.sync
  absentRun : x.absentRun = y.absentRun
  expected : x.expected = y.expected
  lastValid : x.lastValid = y.lastValid
  ring : x.ring = y.ring

theorem windowClose_received (s : State) (p : Port) :
    ReceivedAs ((runEngine (closeWindow p s)).ports.get p) (s.portAfterWindow p) := by
  have h := closeWindow_receiver p s
  rw [← outcome_eq] at h
  rw [(engine_runEngine _).port p]
  exact ⟨h.rx, h.sync, h.absentRun, h.expected, h.lastValid, h.ring⟩

end Sys2Proof.Machine

/-! ### The receiver, the ring and the counters after a window (R6 to R14, R19, R123) -/

namespace Sys2Proof.Machine

/-! #### What a window counts (R19) -/

theorem outcome_absent_iff (s : State) (p : Port) : s.outcome p = .absent ↔ (s.ports.get p).store = [] := by
  unfold State.outcome
  cases (s.ports.get p).store with
  | nil => simp
  | cons bytes rest => simpa using judgeSpan_ne_absent bytes

theorem raises_check_iff (s : State) (p : Port) : s.raises p .check = true ↔ ∃ audio, s.outcome p = .check audio := by
  unfold State.raises
  cases s.outcome p <;> simp

theorem countWindow_taken (o : WindowOutcome) (q : SequenceResult) (c : Counters) :
    (countWindow o q c).taken = if o = .absent then c.taken else countUp c.taken := by
  cases o <;> cases q <;> simp [countWindow]

theorem countWindow_absentWindows (o : WindowOutcome) (q : SequenceResult) (c : Counters) :
    (countWindow o q c).absentWindows = if o = .absent then countUp c.absentWindows else c.absentWindows := by
  cases o <;> cases q <;> simp [countWindow]

theorem countWindow_checkFailures (s : State) (p : Port) (q : SequenceResult) (c : Counters) :
    (countWindow (s.outcome p) q c).checkFailures
      = if s.raises p .check = true then countUp c.checkFailures else c.checkFailures := by
  unfold State.raises
  cases s.outcome p <;> cases q <;> rfl

theorem countWindow_sequenceFaults (o : WindowOutcome) (q : SequenceResult) (c : Counters) :
    (countWindow o q c).sequenceFaults = if q = .mismatched then countUp c.sequenceFaults else c.sequenceFaults := by
  cases o <;> cases q <;> simp [countWindow]

theorem countWindow_overruns (o : WindowOutcome) (q : SequenceResult) (c : Counters) :
    (countWindow o q c).overruns = c.overruns := by
  cases o <;> cases q <;> rfl

theorem countWindow_broken (o : WindowOutcome) (q : SequenceResult) (c : Counters) : (countWindow o q c).broken = c.broken := by
  cases o <;> cases q <;> rfl

/-- Settles O28: a window without lane bytes is the close alone, within the window frame, and port p is that of steps 1 to 3. -/
theorem windowLeavesTheOtherPortAlone : Obligations.WindowLeavesTheOtherPortAlone := by
  unfold Obligations.WindowLeavesTheOtherPortAlone
  intro s p hdue hquiet x
  have hf := closeWindow_within p s
  obtain ⟨hreceived, hrequests, hwait, hcounts⟩ := closeWindow_quietPort hquiet
  have hempty : (s.outcome p = .absent) = (x.store = []) := propext (outcome_absent_iff s p)
  have htaken := hcounts.taken.trans (countWindow_taken _ _ _)
  have habsent := hcounts.absentWindows.trans (countWindow_absentWindows _ _ _)
  have hcheck := hcounts.checkFailures.trans (countWindow_checkFailures s p _ _)
  have hoverruns := hcounts.overruns.trans (countWindow_overruns _ _ _)
  simp only [hempty] at htaken habsent
  refine ⟨_, exec_windowClose hdue, ?_⟩
  rw [runEngine_closeWindow_quiet hdue hquiet]
  exact ⟨hf.otherPort, hf.otherHealth, hf.prog, hf.store, hf.run, hf.rate, hf.pins, hf.pointer, hf.staged, hf.lock, hf.sentReturn,
    hf.sentProgram, hf.rows, hf.firstMark, hf.readDelays, hf.debounce, closeWindow_auto p s, closeWindow_clock p s,
    hreceived.store, hrequests, hreceived.replies, hwait, htaken, habsent, hcheck, hoverruns⟩

end Sys2Proof.Machine

namespace Sys2Proof.Machine

/-! #### Span numbers, the last valid span and the ring (R11 to R14) -/

/-- The span that a window uses is its valid DATA span, else its valid IDLE span (R11). -/
theorem usedSpan_outcome (s : State) (p : Port) :
    usedSpan (s.outcome p) = if (s.taken p .data).isSome then s.taken p .data else s.taken p .idle := by
  unfold usedSpan State.taken
  cases s.outcome p with
  | absent => rfl
  | check audio => rfl
  | valid f => rcases f with ⟨kind⟩; cases kind <;> rfl

/-- A port makes its lock only with a valid DATA or IDLE span (R8). -/
theorem usedSpan_of_lock {t : Tables} {rx : RxState} {sync run : Nat} {o : WindowOutcome} (hold : rx ≠ .locked)
    (hnew : (rxAfter t rx sync run o).1 = .locked) : ∃ f, usedSpan o = some f := by
  rcases o with - | audio | f
  · cases rx with
    | down => simp [rxAfter] at hnew
    | training => simp [rxAfter] at hnew
    | locked => exact absurd rfl hold
    | standby => simp only [rxAfter] at hnew; split at hnew <;> simp at hnew
  · cases rx with
    | locked => exact absurd rfl hold
    | _ => simp [rxAfter] at hnew
  · by_cases hkind : f.kind = .data ∨ f.kind = .idle
    · exact ⟨f, if_pos hkind⟩
    · rcases f with ⟨kind⟩
      cases rx <;> cases kind <;> simp_all [rxAfter]

/-- Inside LOCKED a used span's number is expected or is a sequence fault, and the expected number follows it (R11). -/
theorem expectedAfter_locked (o : WindowOutcome) (e : SpanNumber) :
    (expectedAfter .locked .locked o e).1 = (match usedSpan o with
        | some f => f.number
        | none => e + 1)
      ∧ ((expectedAfter .locked .locked o e).2 = .mismatched ↔ ∃ f ∈ usedSpan o, f.number ≠ e + 1) := by
  unfold expectedAfter
  generalize e + 1 = n
  cases usedSpan o with
  | none => simp
  | some f =>
    by_cases hn : f.number = n
    · simp [hn]
    · simp [hn]

/-- A window that is not LOCKED before and after compares no number (R11). -/
theorem expectedAfter_not_mismatched {old new : RxState} (h : ¬ (old = .locked ∧ new = .locked)) (o : WindowOutcome)
    (e : SpanNumber) : (expectedAfter old new o e).2 ≠ .mismatched := by
  unfold expectedAfter
  split
  · next hold =>
    rw [if_neg fun hnew => h ⟨hold, hnew⟩]
    simp
  · split
    · split <;> simp
    · simp

/-- Settles O26: whatever the lane brings, the span numbers are those of steps 1 to 3; the counter too where it brings nothing. -/
theorem windowTracksSpanNumbers : Obligations.WindowTracksSpanNumbers := by
  unfold Obligations.WindowTracksSpanNumbers
  intro s p hdue x used
  have hused : usedSpan (s.outcome p) = used := usedSpan_outcome s p
  have hy := windowClose_received s p
  refine ⟨_, exec_windowClose hdue, ?_⟩
  rw [settleLines_ports]
  intro y
  have hrx : y.rx = (s.portAfterWindow p).rx := hy.rx
  have hexpected : y.expected = (expectedAfter x.rx y.rx (s.outcome p) x.expected).1 := by rw [hrx]; exact hy.expected
  have hvalid : y.lastValid = lastValidAfter s.clock.window x.rx y.rx (s.outcome p) x.lastValid := by rw [hrx]; exact hy.lastValid
  refine ⟨fun hx hnew => ?_, fun hx hnew => ?_, fun hx hnew => ?_, fun hquiet => ?_, fun hnew => ?_, fun hnew => ?_⟩
  · rw [hexpected, hx, hnew, ← hused]
    exact (expectedAfter_locked _ _).1
  · rw [hexpected, expectedAfter, if_pos hx, if_neg hnew]
  · obtain ⟨f, hf⟩ := usedSpan_of_lock hx (hrx.symm.trans hnew)
    refine ⟨f, hused.symm.trans hf, ?_⟩
    rw [hexpected, expectedAfter, if_neg hx, if_pos hnew, hf]
  · have hfaults : y.counters.sequenceFaults
        = (countWindow (s.outcome p) (expectedAfter x.rx y.rx (s.outcome p) x.expected).2 x.counters).sequenceFaults := by
      have hport : y = (closeWindow p s).ports.get p :=
        congrArg (fun t : State => t.ports.get p) (runEngine_closeWindow_quiet hdue hquiet)
      rw [hrx, hport, (closeWindow_quietPort hquiet).counts.sequenceFaults]
      rfl
    rw [hfaults, countWindow_sequenceFaults]
    refine ite_congr (propext ?_) (fun _ => rfl) (fun _ => rfl)
    by_cases hlocked : x.rx = .locked ∧ y.rx = .locked
    · rw [hlocked.1, hlocked.2, (expectedAfter_locked _ _).2, hused]
      simp
    · exact ⟨fun h => absurd h (expectedAfter_not_mismatched hlocked _ _), fun h => absurd ⟨h.1, h.2.1⟩ hlocked⟩
  · rw [hvalid, hnew]
    unfold State.taken
    cases s.outcome p with
    | absent => rfl
    | check audio => rfl
    | valid f => rcases f with ⟨kind⟩; cases kind <;> rfl
  · rw [hvalid]
    unfold lastValidAfter
    exact if_neg hnew

/-- A check failure neither makes nor breaks the lock (R7 to R10). -/
theorem rxAfter_check_locked_iff (t : Tables) (rx : RxState) (sync run : Nat) (audio : List Sample) :
    (rxAfter t rx sync run (.check audio)).1 = .locked ↔ rx = .locked := by
  cases rx <;> simp [rxAfter]

/-- Settles O27: the ring is that of step 3, and a check failure in LOCKED is one of a port that was LOCKED before. -/
theorem windowWritesOneSlot : Obligations.WindowWritesOneSlot := by
  unfold Obligations.WindowWritesOneSlot
  intro s p hdue x
  have hy := windowClose_received s p
  refine ⟨_, exec_windowClose hdue, ?_⟩
  rw [settleLines_ports, hy.ring, hy.rx]
  show x.ring.set (ringIndex s.clock.window) _ = _
  refine congrArg (x.ring.set (ringIndex s.clock.window)) ?_
  have hrx : (s.portAfterWindow p).rx
      = (rxAfter s.live x.rx x.sync (absentRunAfter (s.outcome p) x.absentRun) (s.outcome p)).1 := rfl
  by_cases hlocked : (s.portAfterWindow p).rx = .locked
  · unfold slotFor
    rw [if_pos hlocked, if_pos (hrx.symm.trans hlocked)]
    cases ho : s.outcome p with
    | absent => rfl
    | valid f => rfl
    | check audio =>
      rw [ho] at hrx
      have hx : x.rx = .locked := (rxAfter_check_locked_iff _ _ _ _ _).mp (hrx.symm.trans hlocked)
      have hnew : (rxAfter s.live x.rx x.sync (absentRunAfter (.check audio) x.absentRun) (.check audio)).1 = .locked :=
        hrx.symm.trans hlocked
      dsimp only
      rw [hnew, hx]
      refine congrArg (Slot.predicted · audio) ?_
      show predictedMeta s.clock.window (x.expected + 1) x.lastValid = _
      unfold predictedMeta
      cases x.lastValid <;> rfl
  · unfold slotFor
    rw [if_neg hlocked, if_neg fun h => hlocked (hrx.trans h)]

end Sys2Proof.Machine

namespace Sys2Proof.Machine

/-! #### The receiver's tables and the broken lane stream (R6 to R10, R16, R123) -/

/-- The kind of the valid span a window took, when it took one. -/
def kindOf (o : WindowOutcome) : Option SpanKind :=
  match o with
  | .valid f => some f.kind
  | _ => none

/-- The absent run counts absent windows in a row, and stops at 255 (R6). -/
theorem absentRunAfter_eq (o : WindowOutcome) (n : Nat) : absentRunAfter o n = if o = .absent then min 255 (n + 1) else 0 := by
  cases o <;> simp [absentRunAfter, satAdd]

/-- The four tables of the receiver as one: a SYNC span trains in every state, and else each state has its own rows (R7 to R10). -/
theorem rxAfter_eq (t : Tables) (rx : RxState) (sync run : Nat) (o : WindowOutcome) :
    rxAfter t rx sync run o =
      if kindOf o = some .sync then (.training, if rx = .training then min 255 (sync + 1) else 1)
      else match rx with
        | .down => (.down, sync)
        | .training =>
          if o = .absent then (.down, 0)
          else if (kindOf o = some .data ∨ kindOf o = some .idle) ∧ t.lSync ≤ sync then (.locked, 0)
          else (.training, 0)
        | .locked => if o = .absent ∧ t.nDown ≤ run then (.down, sync) else if kindOf o = some .standby then (.standby, sync)
            else (.locked, sync)
        | .standby => if o = .absent ∧ t.nDown ≤ run then (.down, sync) else (.standby, sync) := by
  rcases o with - | audio | f
  · cases rx <;> simp [rxAfter, kindOf]
  · cases rx <;> simp [rxAfter, kindOf]
  · rcases f with ⟨kind⟩
    cases rx <;> cases kind <;> simp [rxAfter, kindOf, satAdd]

/-- A port with its lane stream broken: the deframer in HUNT with nothing held and no continuity, and a message in progress counted
BROKEN (R123). -/
def ShowPort.withBrokenLane (x : ShowPort) : ShowPort :=
  { x with deframer := ⟨.hunt, [], false, 0, none⟩
           counters := if x.deframer.busy = true then { x.counters with broken := countUp x.counters.broken } else x.counters }

/-- The record of a broken lane stream, which only a message in progress makes (R123, R125). -/
def brokenRecord (p : Port) (x : ShowPort) : List EventBody :=
  if x.deframer.busy = true then [.mgmtError p .broken (min 16777215 (countUp x.counters.broken))] else []

/-- All that a broken-message indication does (R123). -/
theorem stepDeframer_indicateBroken (p : Port) (s : State) :
    stepDeframer p indicateBroken s
      = { s with ports := s.ports.set p (s.ports.get p).withBrokenLane
                 events := s.recording (brokenRecord p (s.ports.get p)) } := by
  unfold stepDeframer indicateBroken breakLane applyOut ShowPort.withBrokenLane brokenRecord
  cases hbusy : (s.ports.get p).deframer.busy with
  | false => rfl
  | true =>
    simp only [if_true]
    rw [raiseMgmtError_eq]
    simp only [State.setDeframer, setPort_ports, PerPort.get_set_self, PerPort.set_set]
    rfl

/-- A deframer with no message in progress does not age (R124). -/
theorem stepDeframer_ageStep_of_idle {p : Port} {s : State} (h : (s.ports.get p).deframer.busy = false) :
    stepDeframer p ageStep s = s := by
  have hset : s.setDeframer p (s.ports.get p).deframer = s := by
    unfold State.setDeframer State.setPort
    rw [PerPort.set_get]
  unfold stepDeframer ageStep
  simp only [h]
  exact hset

/-- The records of a change of receiver state: PORT_STATE, then the broken lane stream of a port that leaves LOCKED (R6). -/
def changeRecords (p : Port) (old new : RxState) (x : ShowPort) : List EventBody :=
  (if old = new then [] else [.portState p old new]) ++ if old = .locked ∧ new ≠ .locked then brokenRecord p x else []

/-- All that a change of receiver state does besides (R6). -/
theorem recordTransition_eq (p : Port) (old new : RxState) (s : State) :
    recordTransition p old new s = { s with
      ports := if old = .locked ∧ new ≠ .locked then s.ports.set p (s.ports.get p).withBrokenLane else s.ports
      events := s.recording (changeRecords p old new (s.ports.get p)) } := by
  unfold recordTransition changeRecords
  by_cases hsame : old = new
  · subst hsame
    simp [State.recording]
  · rw [if_neg hsame, if_neg hsame]
    by_cases hold : old = .locked
    · have hleaves : old = .locked ∧ new ≠ .locked := ⟨hold, fun hnew => hsame (hold.trans hnew.symm)⟩
      rw [if_pos hold, if_pos hleaves, recording_append, stepDeframer_indicateBroken]
      rw [if_pos hleaves]
      rfl
    · have hstays : ¬ (old = .locked ∧ new ≠ .locked) := fun h => hold h.1
      rw [if_neg hold, if_neg hstays, if_neg hstays]
      rfl

/-- Steps 1 to 3 leave the deframer and the BROKEN counter (R5). -/
theorem transitioned_eq (s : State) (p : Port) :
    s.transitioned p = { s with
      ports := s.ports.set p (if (s.ports.get p).rx = .locked ∧ (s.portAfterWindow p).rx ≠ .locked
        then (s.portAfterWindow p).withBrokenLane else s.portAfterWindow p)
      events := s.recording (changeRecords p (s.ports.get p).rx (s.portAfterWindow p).rx (s.ports.get p)) } := by
  have hbroken : (s.portAfterWindow p).counters.broken = (s.ports.get p).counters.broken := countWindow_broken _ _ _
  have hrecords : changeRecords p (s.ports.get p).rx (s.portAfterWindow p).rx (s.portAfterWindow p)
      = changeRecords p (s.ports.get p).rx (s.portAfterWindow p).rx (s.ports.get p) := by
    unfold changeRecords brokenRecord
    rw [hbroken]
    rfl
  unfold State.transitioned
  rw [recordTransition_eq, setPort_ports, PerPort.get_set_self, hrecords]
  split
  · rw [PerPort.set_set]; rfl
  · rfl

/-- A window that leaves LOCKED, or a check failure in LOCKED, breaks the lane stream once (R16, R123). -/
theorem closeWindow_breaks {s : State} {p : Port} (hold : (s.ports.get p).rx = .locked)
    (h : (s.portAfterWindow p).rx ≠ .locked ∨ ∃ audio, s.outcome p = .check audio) :
    (closeWindow p s).ports.get p = (s.portAfterWindow p).withBrokenLane := by
  have hlane : (handWindowLane p (s.portAfterWindow p).rx (s.outcome p) (s.reported p)).ports.get p
      = (s.portAfterWindow p).withBrokenLane := by
    by_cases hnew : (s.portAfterWindow p).rx = .locked
    · obtain ⟨audio, hcheck⟩ := h.resolve_left fun hn => hn hnew
      unfold handWindowLane
      rw [if_pos hnew, hcheck]
      dsimp only
      rw [stepDeframer_indicateBroken]
      dsimp only
      rw [PerPort.get_set_self, reported_ports, transitioned_eq, if_neg fun hn => hn.2 hnew]
      dsimp only
      rw [PerPort.get_set_self]
    · unfold handWindowLane
      rw [if_neg hnew, reported_ports, transitioned_eq, if_pos ⟨hold, hnew⟩]
      dsimp only
      rw [PerPort.get_set_self]
  rw [closeWindow_eq, stepDeframer_ageStep_of_idle (by rw [hlane]; rfl)]
  exact hlane

/-- With no lane byte, the records of the receiver's change come first (log 13). -/
theorem changeRecords_prefix {s : State} {p : Port} (h : s.LaneQuiet p) :
    (s.recording (changeRecords p (s.ports.get p).rx (s.portAfterWindow p).rx (s.ports.get p))).records
      <+: (closeWindow p s).events.records := by
  obtain ⟨u, hu, hclose⟩ := closeWindow_silent h
  rw [hclose]
  have hprefix := Offered.records_prefix (Offered.trans (offered_reported s p) hu.lane.offered)
  rwa [transitioned_eq] at hprefix

/-- Settles O25: the tables are those of `rxAfter`, a broken lane stream is broken once, and the records of the change are offered
before all others. -/
theorem receiverFollowsItsTables : Obligations.ReceiverFollowsItsTables := by
  unfold Obligations.ReceiverFollowsItsTables
  intro s p hdue x kind run lost
  have hy := windowClose_received s p
  have hrun : absentRunAfter (s.outcome p) x.absentRun = run := absentRunAfter_eq _ _
  have htable : ((s.portAfterWindow p).rx, (s.portAfterWindow p).sync) = rxAfter s.live x.rx x.sync run (s.outcome p) := by
    rw [← hrun]
    rfl
  refine ⟨_, exec_windowClose hdue, ?_⟩
  rw [settleLines_ports, settleLines_events]
  refine ⟨hy.absentRun.trans hrun, ?_, fun hbreak => ?_, fun hquiet => ?_⟩
  · rw [hy.rx, hy.sync, htable, rxAfter_eq]
    rfl
  · have hold : x.rx = .locked := hbreak.elim (fun h => h.1) (fun h => h.1)
    have hcause : (s.portAfterWindow p).rx ≠ .locked ∨ ∃ audio, s.outcome p = .check audio :=
      hbreak.imp (fun h => hy.rx ▸ h.2) (fun h => (raises_check_iff s p).mp h.2)
    have hport := closeWindow_breaks hold hcause
    have hbroken : (s.portAfterWindow p).counters.broken = x.counters.broken := countWindow_broken _ _ _
    rw [runEngine_closeWindow hdue (by rw [hport]; rfl), hport]
    refine ⟨rfl, ?_⟩
    rw [← hbroken]
    exact apply_ite Counters.broken _ _ _
  · rw [hy.rx, runEngine_closeWindow_quiet hdue hquiet]
    simp only [ite_and (x.rx = .locked ∧ _)]
    exact changeRecords_prefix hquiet

end Sys2Proof.Machine

/-! ### Program samples and the program span (R18, R82 to R96) -/

namespace Sys2Proof.Machine

/-! #### What a sample mixes, in the rules' terms (R53, R83 to R85, R90) -/

/-- The ring sample time of the next program sample, as a number (R53). -/
theorem ringTime_toNat (s : State) (p : Port) : (s.ringTime p).toNat = s.readTime p := by
  unfold State.ringTime State.programTime windowTime State.readTime
  simp only [BitVec.toNat_sub, BitVec.toNat_add, BitVec.toNat_ofNat]
  omega

theorem ringSlot_ringTime (s : State) (p : Port) : s.ringSlot p (s.ringTime p) = s.readSlot p := by
  unfold State.ringSlot State.readSlot
  rw [ringTime_toNat]
  rfl

/-- Channel k of one sample period's 64 samples. -/
theorem getD_row (audio : List Sample) (j : Nat) (k : Fin 64) :
    ((audio.drop (64 * j)).take 64).getD k.val 0 = audio.getD (64 * j + k.val) 0 := by
  simp only [List.getD_eq_getElem?_getD, List.getElem?_take, if_pos k.isLt, List.getElem?_drop]

/-- A source sample is what is heard of the port's ring (R83). -/
theorem sourceSample_ringRow (s : State) (p : Port) (slot : Option (Fin 64)) :
    sourceSample (s.tables.live.pilot p) slot (s.ringRow p) = s.heard p slot := by
  unfold State.ringRow State.heard
  dsimp only
  rw [ringSlot_ringTime, slotOffset, ringTime_toNat]
  cases slot with
  | none => cases s.readSlot p <;> rfl
  | some k =>
    cases s.readSlot p with
    | empty => simp [sourceSample]
    | valid info audio => simp only [sourceSample, getD_row]
    | predicted info audio => simp only [sourceSample, getD_row]

theorem resolveClass_eq (s : State) (e : RouteEntry) : resolveClass s.live e.cls = s.classOf e := by
  unfold resolveClass State.classOf
  cases e.cls <;> rfl

/-- The weights of a channel are its gains on both ports at the fade position as it stands (R84, R85). -/
theorem weights_eq_gain (s : State) (e : RouteEntry) :
    weights s.live s.ctrl (resolveClass s.live e.cls) (chosenCurve s.live s.ctrl.aligned e)
      = (s.gain s.ctrl.q .a e, s.gain s.ctrl.q .b e) := by
  rw [resolveClass_eq]
  unfold weights State.gain chosenCurve
  cases s.classOf e with
  | byDefault => rfl
  | mute => rfl
  | pinA => rfl
  | pinB => rfl
  | cut =>
    cases s.ctrl.mode with
    | idle => rfl
    | opening x => cases x <;> rfl
    | on x => cases x <;> rfl
    | fade x => cases x <;> rfl
  | follow =>
    cases s.ctrl.mode with
    | idle => rfl
    | opening x => cases x <;> rfl
    | on x => cases x <;> rfl
    | fade x => cases x <;> rfl

/-- The rounded sums of a sample (R90). -/
theorem mixedRow_eq (s : State) : mixedRow s = s.tables.live.route.map fun e => s.rounded s.ctrl.q e := by
  unfold mixedRow State.rounded
  refine List.map_congr_left fun e _ => ?_
  unfold channelSum
  rw [weights_eq_gain]
  simp only [State.live, sourceSample_ringRow]
  rfl

/-! #### The steps of a sample inside a span (R92) -/

theorem sampleStep2_of_none {s : State} (h : s.sampleMark = none) :
    sampleStep2 s = { s with mixer := { s.mixer with earlyMark := none } } := by
  unfold sampleStep2
  rw [h]

theorem sampleStep2_of_some {s : State} {m : MarkReport} (h : s.sampleMark = some m) :
    sampleStep2 s = answerMark m { s with mixer := { s.mixer with earlyMark := none } } := by
  unfold sampleStep2
  rw [h]

/-- The span keeps the offset of its first mark (R95). -/
theorem noteMark_eq (s : State) :
    noteMark s = { s with mixer := { s.mixer with firstMark := some (s.mixer.firstMark.getD s.clock.made) } } := by
  unfold noteMark
  split
  · next j hj => rw [hj, Option.getD_some, ← hj]
  · next hnone => rw [hnone]; rfl

/-- The answers to a mark are within the control frame of the noted mark. -/
theorem frame_answerMark (m : MarkReport) (s : State) : ControlFrame (noteMark s) (answerMark m s) :=
  (frame_controllerMark m _).trans (frame_tableMark m _)

theorem stand_answerMark (m : MarkReport) (s : State) : StandFrame (noteMark s) (answerMark m s) :=
  (stand_controllerMark m _).trans (stand_tableMark m _)

/-- Step 2 of a sample keeps the clock, the rows and the position record, and notes the first mark (R92, R93, R95). -/
theorem sampleStep2_keeps (s : State) :
    (sampleStep2 s).clock = s.clock ∧ (sampleStep2 s).mixer.rows = s.mixer.rows
      ∧ (sampleStep2 s).align.position = s.align.position ∧ (sampleStep2 s).mixer.firstMark = s.markAfter := by
  cases hmark : s.sampleMark with
  | none =>
    rw [sampleStep2_of_none hmark]
    refine ⟨rfl, rfl, rfl, ?_⟩
    unfold State.markAfter
    rw [hmark]
    cases s.mixer.firstMark <;> rfl
  | some m =>
    rw [sampleStep2_of_some hmark]
    have hf := frame_answerMark m { s with mixer := { s.mixer with earlyMark := none } }
    have hs := stand_answerMark m { s with mixer := { s.mixer with earlyMark := none } }
    rw [noteMark_eq] at hf hs
    refine ⟨hf.clock, hf.rows, hs.position, hf.firstMark.trans ?_⟩
    unfold State.markAfter
    rw [hmark]
    cases s.mixer.firstMark <;> rfl

/-- Past the first sample of a span, a sample is steps 2 and 3 and the mix (R92). -/
theorem sampleMixed_of_pos {s : State} (h : 0 < s.clock.made) : sampleMixed s = mixSample (sampleStep3 (sampleStep2 s)) := by
  unfold sampleMixed sampleStep1 sampleRestamp
  have hmade : s.clock.made ≠ 0 := Nat.ne_of_gt h
  rw [if_neg hmade, (sampleStep2_keeps s).1, if_neg hmade]

/-- The fade position a sample is mixed at (R60). -/
theorem sampleStep3_q (s : State) :
    (sampleStep3 s).ctrl.q = if s.ctrl.mode.isTransition then s.ctrl.q + 1 else s.ctrl.q := by
  unfold sampleStep3
  split <;> rfl

theorem sampleStep3_rounded (s : State) (q : Nat) (e : RouteEntry) : (sampleStep3 s).rounded q e = s.rounded q e := by
  unfold sampleStep3
  split <;> rfl

theorem sampleStep3_keeps (s : State) : (sampleStep3 s).tables = s.tables ∧ (sampleStep3 s).mixer = s.mixer
    ∧ (sampleStep3 s).align = s.align := by
  unfold sampleStep3
  split <;> exact ⟨rfl, rfl, rfl⟩

/-- The row that the next sample mixes once its answers are given: in a transition the fade position goes up by one first
(R60, R90). -/
def State.nextRow (s : State) : List Sample :=
  s.tables.live.route.map fun e => limitSample (s.rounded (if s.ctrl.mode.isTransition then s.ctrl.q + 1 else s.ctrl.q) e)

theorem mixedRow_sampleStep3 (s : State) : (mixedRow (sampleStep3 s)).map limitSample = s.nextRow := by
  rw [mixedRow_eq, List.map_map, (sampleStep3_keeps s).1, sampleStep3_q]
  refine List.map_congr_left fun e _ => ?_
  rw [Function.comp_apply, sampleStep3_rounded]

/-- A sample that answers no mark mixes from the state as it stands. -/
theorem nextRow_sampleStep2 (s : State) :
    (sampleStep2 s).nextRow = (if s.sampleMark = none then s else sampleStep2 s).nextRow := by
  split
  · next hnone => rw [sampleStep2_of_none hnone]; rfl
  · rfl

/-- What a sample past the first leaves for the hand-over: its row behind those made before, the first mark, and the position record
of the span (R90, R95, R96). -/
theorem stepsTo5_mixer {s : State} (h : 0 < s.clock.made) :
    let t := recordAdoption s (sampleStep5 (sampleMixed s))
    t.mixer.rows = s.mixer.rows ++ [(if s.sampleMark = none then s else sampleStep2 s).nextRow]
      ∧ t.mixer.firstMark = s.markAfter ∧ t.align.position = s.align.position := by
  intro t
  obtain ⟨-, hrows, hposition, hmark⟩ := sampleStep2_keeps s
  obtain ⟨-, hmixer, halign⟩ := sampleStep3_keeps (sampleStep2 s)
  have hf := (frame_sampleStep5 (sampleMixed s)).trans (frame_recordAdoption s _)
  have hs := (stand_sampleStep5 (sampleMixed s)).trans (stand_recordAdoption s _)
  have hmixed := sampleMixed_of_pos h
  refine ⟨hf.rows.trans ?_, hf.firstMark.trans ?_, hs.position.trans ?_⟩ <;> rw [hmixed]
  · show (sampleStep3 (sampleStep2 s)).mixer.rows ++ [(mixedRow (sampleStep3 (sampleStep2 s))).map limitSample] = _
    rw [mixedRow_sampleStep3, nextRow_sampleStep2, hmixer, hrows]
  · exact (congrArg Mixer.firstMark hmixer).trans hmark
  · exact (congrArg Alignment.position halign).trans hposition

/-! #### The hand-over of a span with its last sample (R18, R96) -/

/-- The last sample of a span hands it over. -/
theorem makeSample_of_last {s : State} (h : s.clock.made = 31) :
    makeSample s = sendProgramSpan (countSample (recordAdoption s (sampleStep5 (sampleMixed s)))) := by
  unfold makeSample handOver
  refine if_pos ?_
  show (recordAdoption s _).clock.made + 1 = 32
  rw [stepsTo5_clock, h]

/-- The hand-over of a counted sample, from the state before the count (R18, R96). -/
theorem sendProgramSpan_countSample (u : State) :
    let t := sendProgramSpan (countSample u)
    t.mixer.rows = [] ∧ t.mixer.firstMark = none
      ∧ t.prog = (if 0 < u.prog.countdown then { u.prog with countdown := u.prog.countdown - 1 }
          else { u.prog with heartbeat := u.prog.heartbeat + 1 })
      ∧ t.sentProgram = some (if 0 < u.prog.countdown then .sync (windowNumber u.clock.window)
          else .data (windowNumber u.clock.window) u.prog.heartbeat u.mixer.firstMark u.align.position u.mixer.rows) :=
  ⟨rfl, rfl, rfl, rfl⟩

/-- What is sent with the last sample: SYNC while the countdown is above 0, which then goes down, else DATA with the heartbeat,
which then goes up; the mixer holds nothing of the span any more (R18, R96). -/
theorem makeSample_sends {s : State} (h : s.clock.made = 31) :
    (makeSample s).mixer.rows = [] ∧ (makeSample s).mixer.firstMark = none
      ∧ (makeSample s).prog = (if 0 < s.prog.countdown then { s.prog with countdown := s.prog.countdown - 1 }
          else { s.prog with heartbeat := s.prog.heartbeat + 1 })
      ∧ (makeSample s).sentProgram = some (if 0 < s.prog.countdown then .sync (windowNumber s.clock.window)
          else .data (windowNumber s.clock.window) s.prog.heartbeat s.markAfter s.align.position
            (s.mixer.rows ++ [(if s.sampleMark = none then s else sampleStep2 s).nextRow])) := by
  obtain ⟨hrow, hmark, hposition⟩ := stepsTo5_mixer (show 0 < s.clock.made by omega)
  have hsends := sendProgramSpan_countSample (recordAdoption s (sampleStep5 (sampleMixed s)))
  rwa [(stepsTo5_prog s).1, stepsTo5_clock, hrow, hmark, hposition, ← makeSample_of_last h] at hsends

/-- The command of the last sample of a span is that sample, and then the engine's look (log 7). -/
theorem exec_programSample_of_last {s : State} (hrun : s.run = .running) (hbegun : s.clock.begun = true)
    (hmade : s.clock.made = 31) : exec .programSample s = .next (runEngine (makeSample s)).settleLines := by
  have hexec := whileRunning_of_running (f := nextSample) hrun
  have hlook : (makeSample s).clock.made = Config.spanLength := by rw [makeSample_made, hmade]; rfl
  unfold nextSample lookAfterSpan at hexec
  rwa [atSample_of_begun hbegun (by omega), if_pos hlook] at hexec

/-- Settles O13: the sample hands the span over, and the engine's look after it leaves the program port and the mixer. -/
theorem lastSampleSendsTheProgramSpan : Obligations.LastSampleSendsTheProgramSpan := by
  unfold Obligations.LastSampleSendsTheProgramSpan
  intro s hrun hbegun hmade u mark
  have hengine := engine_runEngine (makeSample s)
  obtain ⟨hrows, hfirst, hprog, hsent⟩ := makeSample_sends hmade
  have hmark : s.markAfter = mark := by
    unfold State.markAfter
    rw [hmade]
    show _ = (match s.mixer.firstMark with
      | some j => some j
      | none => if s.sampleMark = none then none else some 31)
    cases s.mixer.firstMark with
    | some j => rfl
    | none => cases s.sampleMark <;> rfl
  refine ⟨_, exec_programSample_of_last hrun hbegun hmade, ?_, hengine.rows.trans hrows, hengine.firstMark.trans hfirst,
    fun hsync => ⟨hengine.sentProgram.trans ?_, hengine.prog.trans ?_⟩,
    fun hdata => ⟨hengine.prog.trans ?_, hengine.sentProgram.trans ?_⟩⟩
  · rw [settleLines_clock, hengine.clock, makeSample_clock, hmade]
  · rw [hsent, if_pos hsync]; rfl
  · rw [hprog, if_pos hsync]
  · rw [hprog, if_neg (by omega)]
  · rw [hsent, if_neg (by omega), hmark]; rfl

/-! #### The last SYNC span (R18) -/

/-- The rest of a period's samples, at least one, end in the hand-over of the span: the SYNC span while the countdown is above 0. -/
theorem makeSamples_sends_sync (n : Nat) {s : State} (h : s.clock.made + (n + 1) = 32) (hsync : 0 < s.prog.countdown) :
    let t := makeSamples (n + 1) s
    t.mixer.rows = [] ∧ t.mixer.firstMark = none ∧ t.prog = { s.prog with countdown := s.prog.countdown - 1 }
      ∧ t.sentProgram = some (.sync (windowNumber s.clock.window)) := by
  induction n generalizing s with
  | zero =>
    have hsends := makeSample_sends (show s.clock.made = 31 by omega)
    rwa [if_pos hsync, if_pos hsync] at hsends
  | succ n ih =>
    have hprog : (makeSample s).prog = s.prog := (makeSample_prog_of_lt s (by omega)).1
    have hrest := ih (s := makeSample s) (by rw [makeSample_made]; omega) (by rw [hprog]; exact hsync)
    rwa [hprog, makeSample_clock] at hrest

/-- Settles O14: the samples before the last leave the program port, and the last sends the SYNC span. -/
theorem countdownExpiresWithASyncSpan : Obligations.CountdownExpiresWithASyncSpan := by
  unfold Obligations.CountdownExpiresWithASyncSpan
  intro s hrun
  have hexec : exec .syncCountdownExpiry s = .next (sendLastSync s).settleLines := whileRunning_of_running hrun
  refine ⟨fun hnot => ?_, fun hone hbegun hmade => ?_⟩
  · rw [hexec, sendLastSync, if_neg hnot]
  · rw [sendLastSync, if_pos hone, atSample_of_begun hbegun hmade, finishSamples_of_lt hmade] at hexec
    obtain ⟨n, hn⟩ : ∃ n, 32 - s.clock.made = n + 1 := ⟨31 - s.clock.made, by omega⟩
    rw [hn] at hexec
    obtain ⟨hrows, hfirst, hprog, hsent⟩ := makeSamples_sends_sync n (show s.clock.made + (n + 1) = 32 by omega) (by omega)
    have hsamples := sample_makeSamples (n + 1) s
    have hengine := engine_runEngine (makeSamples (n + 1) s)
    refine ⟨_, hexec, hengine.prog.trans (hprog.trans ?_), hengine.sentProgram.trans hsent, hengine.clock.trans ?_,
      hengine.rows.trans hrows, hengine.firstMark.trans hfirst, hengine.health.trans hsamples.health, fun hnone => ?_⟩
    · rw [hone]
    · rw [hsamples.clock, makeSamples_made, show s.clock.made + (n + 1) = 32 by omega]
    · rw [settleLines_ports, runEngine_of_noRequests fun q => by rw [hsamples.ports]; exact noRequests_get hnone q, hsamples.ports]

end Sys2Proof.Machine

/-! ### A message through the deframer (R121, R122, R128) -/

namespace Sys2Proof.Machine

/-- The deframer after a run of lane bytes, with all that it gave, in order (R121). -/
def deframeAll : Deframer → List Byte → Deframer × List DeframerOut
  | d, [] => (d, [])
  | d, b :: rest => ((deframeAll (deframeByte d b).1 rest).1, (deframeByte d b).2.toList ++ (deframeAll (deframeByte d b).1 rest).2)

theorem deframeAll_append (d : Deframer) (xs ys : List Byte) :
    deframeAll d (xs ++ ys)
      = ((deframeAll (deframeAll d xs).1 ys).1, (deframeAll d xs).2 ++ (deframeAll (deframeAll d xs).1 ys).2) := by
  induction xs generalizing d with
  | nil => rfl
  | cons b rest ih =>
    show deframeAll d (b :: (rest ++ ys)) = _
    simp only [deframeAll, ih, List.append_assoc]

/-- One byte of a message, as the lanes carry it, is one byte of the body (R121). -/
theorem deframeAll_escapeByte {d : Deframer} (b : Byte) (hmode : d.mode = .body) (hroom : d.body.length < 96) :
    deframeAll d (escapeByte b) = ({ d with body := d.body ++ [b], busy := true }, []) := by
  have hbody : d.body.length < Config.messageBytes := hroom
  rcases d with ⟨mode, body, busy, age, continuity⟩
  obtain rfl : mode = .body := hmode
  unfold escapeByte
  by_cases h4 : b = 0xF4
  · subst h4
    simp [deframeAll, deframeByte, appendByte, hbody]
  · by_cases h5 : b = 0xF5
    · subst h5
      simp [deframeAll, deframeByte, appendByte, hbody]
    · rw [if_neg h4, if_neg h5]
      simp only [deframeAll, deframeByte, appendByte, if_neg h4, if_neg h5, if_pos hbody]
      rfl

/-- The escaped bytes of a message fill the body while it has room (R121). -/
theorem deframeAll_escaped (m : List Byte) {d : Deframer} (hmode : d.mode = .body) (hroom : d.body.length + m.length ≤ 96) :
    deframeAll d (m.flatMap escapeByte) = ({ d with body := d.body ++ m, busy := d.busy || !m.isEmpty }, []) := by
  induction m generalizing d with
  | nil => simp [deframeAll]
  | cons b rest ih =>
    simp only [List.length_cons] at hroom
    have hrest := ih (d := { d with body := d.body ++ [b], busy := true }) hmode
      (by simp only [List.length_append, List.length_singleton]; omega)
    rw [List.flatMap_cons, deframeAll_append, deframeAll_escapeByte b hmode (by omega)]
    dsimp only
    rw [hrest]
    simp

/-- A separator opens a message in HUNT, and in BODY with nothing held (R121, R122). -/
theorem deframeByte_opens {d : Deframer} (hmode : d.mode ≠ .escape) (hbody : d.body = []) :
    deframeByte d 0xF4 = (d.emptied .body, none) := by
  unfold deframeByte
  cases hm : d.mode with
  | hunt => rfl
  | body => simp [closeBody, hbody]
  | escape => exact absurd hm hmode

/-- A separator closes a body of two bytes or more as a message (R122). -/
theorem closeBody_of_message {d : Deframer} (h : 2 ≤ d.body.length) : closeBody d = (d.emptied .body, some (.message d.body)) := by
  unfold closeBody
  split
  · next hnil => simp [hnil] at h
  · next b hone => simp [hone] at h
  · rfl

/-- A framed message is given whole, and leaves the deframer in BODY with nothing held (R121, R122, R128). -/
theorem deframeAll_frameMessage {d : Deframer} {m : List Byte} (hmode : d.mode ≠ .escape) (hbody : d.body = [])
    (hshort : 2 ≤ m.length) (hlong : m.length ≤ 96) :
    deframeAll d (frameMessage m) = (d.emptied .body, [.message m]) := by
  have hopen : deframeAll d [0xF4] = (d.emptied .body, []) := by simp only [deframeAll, deframeByte_opens hmode hbody]; rfl
  unfold frameMessage
  rw [deframeAll_append, deframeAll_append, hopen,
    deframeAll_escaped m (d := d.emptied .body) rfl (by simpa [Deframer.emptied] using hlong)]
  have hclose := closeBody_of_message
    (d := { d.emptied .body with body := (d.emptied .body).body ++ m, busy := (d.emptied .body).busy || !m.isEmpty })
    (by simpa [Deframer.emptied] using hshort)
  simp only [deframeAll, deframeByte, Deframer.emptied, List.nil_append, if_true] at hclose ⊢
  rw [hclose]
  rfl

/-! #### The deframer and the port (R121, R125) -/

@[simp] theorem setDeframer_ports (s : State) (p : Port) (d : Deframer) :
    (s.setDeframer p d).ports = s.ports.set p { s.ports.get p with deframer := d } := rfl

theorem setDeframer_setDeframer (s : State) (p : Port) (d e : Deframer) :
    (s.setDeframer p d).setDeframer p e = s.setDeframer p e := by
  simp [State.setDeframer, State.setPort]

/-- What the deframer gave reaches the port without regard to the deframer. -/
theorem applyOut_setDeframer (p : Port) (out : Option DeframerOut) (d : Deframer) (s : State) :
    applyOut p out (s.setDeframer p d) = (applyOut p out s).setDeframer p d := by
  have hraise : ∀ k, raiseMgmtError p k (s.setDeframer p d) = (raiseMgmtError p k s).setDeframer p d := fun k => by
    simp [raiseMgmtError_eq, State.setDeframer, State.setPort, State.recording]
  rcases out with - | k | m
  · rfl
  · exact hraise k
  · show offerMessage p m (s.setDeframer p d) = (offerMessage p m s).setDeframer p d
    unfold offerMessage
    dsimp only
    rw [setDeframer_ports, PerPort.get_set_self]
    dsimp only
    split
    · simp [State.setDeframer, State.setPort]
    · exact hraise .dropped

/-- All that a deframer gave reaches the port, in order. -/
def applyOuts (p : Port) (outs : List DeframerOut) (s : State) : State :=
  outs.foldl (fun t out => applyOut p (some out) t) s

theorem applyOuts_setDeframer (p : Port) (outs : List DeframerOut) (d : Deframer) (s : State) :
    applyOuts p outs (s.setDeframer p d) = (applyOuts p outs s).setDeframer p d := by
  induction outs generalizing s with
  | nil => rfl
  | cons out rest ih =>
    show applyOuts p rest (applyOut p (some out) (s.setDeframer p d)) = _
    rw [applyOut_setDeframer, ih]
    rfl

/-- A run of lane bytes at a port is the run of its deframer, with all that it gave applied (R121). -/
theorem foldl_stepDeframer (p : Port) (lane : List Byte) (s : State) :
    lane.foldl (fun t b => stepDeframer p (deframeByte · b) t) s
      = (applyOuts p (deframeAll (s.ports.get p).deframer lane).2 s).setDeframer p
          (deframeAll (s.ports.get p).deframer lane).1 := by
  induction lane generalizing s with
  | nil =>
    show s = s.setDeframer p (s.ports.get p).deframer
    unfold State.setDeframer State.setPort
    rw [PerPort.set_get]
  | cons b rest ih =>
    have hstep : stepDeframer p (deframeByte · b) s
        = (applyOuts p (deframeByte (s.ports.get p).deframer b).2.toList s).setDeframer p
            (deframeByte (s.ports.get p).deframer b).1 := by
      unfold stepDeframer
      rw [applyOut_setDeframer]
      cases (deframeByte (s.ports.get p).deframer b).2 <;> rfl
    show rest.foldl _ (stepDeframer p (deframeByte · b) s) = _
    rw [ih, hstep, setDeframer_ports, PerPort.get_set_self, applyOuts_setDeframer, setDeframer_setDeframer]
    simp only [deframeAll, applyOuts, List.foldl_append]

/-- A deframer with nothing held compares a span's number in silence, and is ready for a separator (R123). -/
theorem compareContinuity_of_idle {d : Deframer} (n : SpanNumber) (hbusy : d.busy = false) (hbody : d.body = [])
    (hmode : d.mode ≠ .escape) : ∃ d', compareContinuity d n = (d', none) ∧ d'.mode ≠ .escape ∧ d'.body = [] := by
  unfold compareContinuity
  dsimp only
  split
  · simp [breakLane, hbusy, Deframer.emptied]
  · simp [hmode, hbody]

/-- A framed message whole in one lane enters the port's queue, and leaves the deframer with nothing held (R121, R122, R125). -/
theorem handLane_frameMessage {p : Port} {s : State} {m : List Byte} (n : SpanNumber)
    (hbusy : (s.ports.get p).deframer.busy = false) (hbody : (s.ports.get p).deframer.body = [])
    (hmode : (s.ports.get p).deframer.mode ≠ .escape) (hshort : 2 ≤ m.length) (hlong : m.length ≤ 96) :
    ∃ d : Deframer, d.busy = false ∧ handLane p n (frameMessage m) s = (offerMessage p m s).setDeframer p d := by
  obtain ⟨d, hcompare, hm, hb⟩ := compareContinuity_of_idle n hbusy hbody hmode
  have hfirst : stepDeframer p (compareContinuity · n) s = s.setDeframer p d := by
    unfold stepDeframer
    dsimp only
    rw [hcompare]
    rfl
  refine ⟨d.emptied .body, rfl, ?_⟩
  unfold handLane
  rw [hfirst, foldl_stepDeframer, setDeframer_ports, PerPort.get_set_self, deframeAll_frameMessage hm hb hshort hlong,
    applyOuts_setDeframer, setDeframer_setDeframer]
  rfl

end Sys2Proof.Machine

/-! ### Requests at the engine (R125 to R128) -/

namespace Sys2Proof.Machine

/-! #### What serving a request does to the ports -/

/-- Serving takes the oldest message of the port's queue, passes the pointer on, and leaves the other port's queues (R125, R126). -/
theorem serveRequest_keeps (p : Port) (s : State) :
    (serveRequest p s).pointer = p.other ∧ ((serveRequest p s).ports.get p).requests = (s.ports.get p).requests.drop 1
      ∧ ((serveRequest p s).ports.get p.other).requests = (s.ports.get p.other).requests
      ∧ ((serveRequest p s).ports.get p.other).replies = (s.ports.get p.other).replies := by
  have htake : (takeRequest p s).pointer = p.other
      ∧ ((takeRequest p s).ports.get p).requests = (s.ports.get p).requests.drop 1
      ∧ (takeRequest p s).ports.get p.other = s.ports.get p.other := by
    simp [takeRequest]
  obtain ⟨hpointer, hrequests, hother⟩ := htake
  unfold serveRequest executeRequest
  split
  · next tag verb operands _ =>
    have hv := verb_runVerb verb operands (takeRequest p s)
    unfold placeReply
    dsimp only [setPort_ports]
    rw [PerPort.get_set_self, PerPort.get_set_other, hv.port p, hv.port p.other, hother]
    exact ⟨hv.pointer.trans hpointer, hrequests, rfl, rfl⟩
  · rw [hother]
    exact ⟨hpointer, hrequests, rfl, rfl⟩

/-- The one reply to a request stands behind the reply bytes its port held (R128). -/
theorem serveRequest_replies {p : Port} {s : State} {tag verb : Byte} {operands : List Byte} {rest : List (List Byte)}
    (h : (s.ports.get p).requests = (tag :: verb :: operands) :: rest) :
    let a := runVerb verb operands (takeRequest p s)
    ((serveRequest p s).ports.get p).replies
      = (s.ports.get p).replies ++ frameMessage (replyBytes tag verb a.status (stampBytes s) a.payload) := by
  intro a
  have hv := verb_runVerb verb operands (takeRequest p s)
  have htake : ((takeRequest p s).ports.get p).replies = (s.ports.get p).replies := by simp [takeRequest]
  have hserve : serveRequest p s = placeReply p (replyBytes tag verb a.status (stampBytes s) a.payload) a.state := by
    unfold serveRequest
    rw [h]
    rfl
  rw [hserve]
  unfold placeReply
  dsimp only [setPort_ports]
  rw [PerPort.get_set_self, hv.port p]
  exact congrArg (· ++ _) htake

/-! #### Which requests the engine serves (R126) -/

theorem eligible_iff (s : State) (p : Port) :
    s.eligible p = true ↔ (s.ports.get p).requests ≠ [] ∧ (s.ports.get p).replies.length + 194 ≤ 512 := by
  simp [State.eligible, Config.replyReserve, Config.replyBytes]

/-- With neither port eligible the engine serves nothing. -/
theorem runEngine_of_none {s : State} (h : ∀ q, s.eligible q = false) : runEngine s = s := by
  have hnone : s.nextTake = none := by simp [State.nextTake, h]
  unfold runEngine
  cases s.waitingRequests with
  | zero => rfl
  | succ n => rw [serveUpTo, hnone]

/-- With one port eligible, that port is served, wherever the pointer stands. -/
theorem nextTake_of_one {s : State} {p : Port} (hp : s.eligible p = true) (ho : s.eligible p.other = false) :
    s.nextTake = some p := by
  unfold State.nextTake
  obtain e | e := Port.eq_or_other p s.pointer <;> rw [e]
  · rw [if_pos hp]
  · rw [ho, Port.other_other, hp]; simp

theorem waitingRequests_eq (s : State) (p : Port) :
    s.waitingRequests = (s.ports.get p).requests.length + (s.ports.get p.other).requests.length := by
  cases p
  · rfl
  · exact Nat.add_comm _ _

/-- One request waiting at a port with room is served, and no more. -/
theorem runEngine_of_one {s : State} {p : Port} {m : List Byte} (hp : (s.ports.get p).requests = [m])
    (ho : (s.ports.get p.other).requests = []) (hroom : (s.ports.get p).replies.length + 194 ≤ 512) :
    runEngine s = serveRequest p s := by
  have hwait : s.waitingRequests = 1 := by rw [waitingRequests_eq s p, hp, ho]; rfl
  have hep : s.eligible p = true := (eligible_iff s p).mpr ⟨by simp [hp], hroom⟩
  have heo : s.eligible p.other = false := by simp [State.eligible, ho]
  unfold runEngine
  rw [hwait, serveUpTo, nextTake_of_one hep heo]
  rfl

/-- With one request waiting at each port, both with room, the port the pointer names is served first. -/
theorem runEngine_of_both {s : State}
    (h : ∀ q, (∃ m, (s.ports.get q).requests = [m]) ∧ (s.ports.get q).replies.length + 194 ≤ 512) :
    runEngine s = serveRequest s.pointer.other (serveRequest s.pointer s) := by
  obtain ⟨⟨m, hm⟩, hroom⟩ := h s.pointer
  obtain ⟨⟨m', hm'⟩, hroom'⟩ := h s.pointer.other
  have hwait : s.waitingRequests = 2 := by rw [waitingRequests_eq s s.pointer, hm, hm']; rfl
  have hfirst : s.nextTake = some s.pointer := if_pos ((eligible_iff s _).mpr ⟨by simp [hm], hroom⟩)
  obtain ⟨hpointer, -, hrequests, hreplies⟩ := serveRequest_keeps s.pointer s
  have hsecond : (serveRequest s.pointer s).nextTake = some s.pointer.other := by
    unfold State.nextTake
    rw [hpointer]
    exact if_pos ((eligible_iff _ _).mpr ⟨by simp [hrequests, hm'], by rw [hreplies]; exact hroom'⟩)
  unfold runEngine
  rw [hwait, serveUpTo, hfirst]
  dsimp only
  rw [serveUpTo, hsecond]
  rfl

/-- A port without reply room is passed over, and the other one is served. -/
theorem runEngine_passes_over {s : State} {p : Port} {m m' : List Byte} (hp : (s.ports.get p).requests = [m])
    (ho : (s.ports.get p.other).requests = [m']) (hfull : 512 < (s.ports.get p).replies.length + 194)
    (hroom : (s.ports.get p.other).replies.length + 194 ≤ 512) : runEngine s = serveRequest p.other s := by
  have hwait : s.waitingRequests = 2 := by rw [waitingRequests_eq s p, hp, ho]; rfl
  have hfullAt : ∀ t : State, (t.ports.get p).replies = (s.ports.get p).replies → t.eligible p = false := fun t ht => by
    rw [Bool.eq_false_iff, ne_eq, eligible_iff, ht]
    omega
  have hfirst : s.nextTake = some p.other :=
    nextTake_of_one ((eligible_iff s _).mpr ⟨by simp [ho], hroom⟩) (by rw [Port.other_other]; exact hfullAt s rfl)
  obtain ⟨hpointer, hdrained, -, hreplies⟩ := serveRequest_keeps p.other s
  rw [Port.other_other] at hpointer hreplies
  have hsecond : (serveRequest p.other s).nextTake = none := by
    unfold State.nextTake
    rw [hpointer, hfullAt _ hreplies]
    simp [State.eligible, hdrained, ho]
  unfold runEngine
  rw [hwait, serveUpTo, hfirst]
  dsimp only
  rw [serveUpTo, hsecond]

/-! #### The request path through a lane (R16, R121, R125) -/

theorem length_le_escaped (m : List Byte) : m.length ≤ (m.flatMap escapeByte).length := by
  induction m with
  | nil => exact Nat.le_refl _
  | cons b rest ih =>
    have hbyte : 1 ≤ (escapeByte b).length := by
      unfold escapeByte
      split
      · decide
      · split
        · decide
        · exact Nat.le_refl _
    simp only [List.flatMap_cons, List.length_append, List.length_cons]
    omega

/-- A message that comes whole in one lane is a short one: a lane holds at most 8 bytes (R16). -/
theorem length_of_framed_lane {s : State} {p : Port} {f : ForwardSpan} {m : List Byte} (h : s.outcome p = .valid f)
    (hlane : f.lane = frameMessage m) : m.length ≤ 96 := by
  have hshort : f.lane.length ≤ 8 := by
    unfold State.outcome at h
    split at h
    · cases h
    · exact length_lane_of_valid h
  have hescaped := length_le_escaped m
  rw [hlane] at hshort
  simp only [frameMessage, List.length_append, List.length_cons, List.length_nil] at hshort
  omega

/-- A LOCKED port that takes a valid DATA or IDLE span stays LOCKED (R9). -/
theorem rxAfter_locked_of_used {t : Tables} {sync run : Nat} {f : ForwardSpan} (hkind : f.kind = .data ∨ f.kind = .idle) :
    (rxAfter t .locked sync run (.valid f)).1 = .locked := by
  rcases hkind with h | h <;> simp [rxAfter, h]

/-- The close of a window whose lane brings one whole message: the message is in the port's queue, the reply queue stands. -/
theorem closeWindow_of_message {s : State} {p : Port} {f : ForwardSpan} {m : List Byte} (hdue : s.WindowDue p)
    (hrx : (s.ports.get p).rx = .locked) (ho : s.outcome p = .valid f) (hkind : f.kind = .data ∨ f.kind = .idle)
    (hlane : f.lane = frameMessage m) (hbusy : (s.ports.get p).deframer.busy = false) (hbody : (s.ports.get p).deframer.body = [])
    (hmode : (s.ports.get p).deframer.mode ≠ .escape) (hm : 2 ≤ m.length) :
    ((closeWindow p s).ports.get p).requests = [m] := by
  have hnew : (s.portAfterWindow p).rx = .locked := by
    show (rxAfter s.live (s.ports.get p).rx _ _ (s.outcome p)).1 = _
    rw [hrx, ho]
    exact rxAfter_locked_of_used hkind
  have hport : (s.reported p).ports.get p = s.portAfterWindow p := by
    rw [reported_ports, transitioned_eq, if_neg fun h => h.2 hnew]
    exact PerPort.get_set_self _ _ _
  have hnone : ((s.reported p).ports.get p).requests = [] := by rw [hport]; exact windowDue_requests hdue p
  have hhand : handWindowLane p (s.portAfterWindow p).rx (s.outcome p) (s.reported p)
      = handLane p f.number (frameMessage m) (s.reported p) := by
    unfold handWindowLane
    rw [if_pos hnew, ho]
    dsimp only
    rw [show usedSpan (.valid f) = some f from if_pos hkind]
    dsimp only
    rw [hlane]
  obtain ⟨d, hidle, hoffer⟩ := handLane_frameMessage (p := p) (s := s.reported p) (m := m) f.number
    (by rw [hport]; exact hbusy) (by rw [hport]; exact hbody) (by rw [hport]; exact hmode) hm (length_of_framed_lane ho hlane)
  have hqueued : ((offerMessage p m (s.reported p)).ports.get p).requests = [m] := by
    unfold offerMessage
    simp [hnone, Config.requestDepth]
  rw [closeWindow_eq, hhand, hoffer, stepDeframer_ageStep_of_idle (by rw [setDeframer_ports, PerPort.get_set_self]; exact hidle)]
  dsimp only
  rw [setDeframer_ports, PerPort.get_set_self]
  exact hqueued

/-- No other code than the thirteen names a verb (R127). -/
theorem runVerb_of_unknown {verb : Byte} (h : verb = 0 ∨ 13 < verb.toNat) (operands : List Byte) (s : State) :
    runVerb verb operands s = refuse s .badVerb := by
  have hne : ∀ k : Byte, k ≠ 0 → k.toNat ≤ 13 → verb ≠ k := by
    rintro k hk hle rfl
    exact h.elim hk (by omega)
  unfold runVerb
  iterate 13 rw [if_neg (hne _ (by decide) (by decide))]

/-- A request that comes whole in one lane is executed at that window close, with its one reply (R16, R126 to R128, R142). -/
theorem laneRequest_executed {s : State} {p : Port} {f : ForwardSpan} {tag verb : Byte} {operands : List Byte}
    (hdue : s.WindowDue p) (hserve : s.CanServe p) (hrx : (s.ports.get p).rx = .locked) (ho : s.outcome p = .valid f)
    (hkind : f.kind = .data ∨ f.kind = .idle) (hlane : f.lane = frameMessage (tag :: verb :: operands))
    (hbusy : (s.ports.get p).deframer.busy = false) (hbody : (s.ports.get p).deframer.body = [])
    (hmode : (s.ports.get p).deframer.mode ≠ .escape) :
    ∃ t status payload, exec (.windowClose p) s = .next t ∧ (t.ports.get p).requests = []
      ∧ (t.ports.get p).replies = (s.ports.get p).replies ++ frameMessage ([tag, verb, statusCode status]
        ++ [BitVec.ofNat 8 (s.clock.window.toNat / 256), BitVec.ofNat 8 s.clock.window.toNat] ++ payload)
      ∧ (verb = 0 ∨ 13 < verb.toNat → status = .badVerb ∧ payload = [])
      ∧ (verb = 0x0D → operands = [] →
        status = .ok ∧ payload = [0x3A, 0x71, 0x19, 0x02, 0x01, if s.rate = .khz48 then 0 else 1]) := by
  have hqueue := closeWindow_of_message hdue hrx ho hkind hlane hbusy hbody hmode (by simp)
  have hreplies : ((closeWindow p s).ports.get p).replies = (s.ports.get p).replies := (closeWindow_receiver p s).replies
  have hother : ((closeWindow p s).ports.get p.other).requests = [] := by
    rw [(closeWindow_within p s).otherPort]; exact windowDue_requests hdue _
  have hengine := runEngine_of_one hqueue hother (by rw [hreplies]; exact hserve.2.2.2)
  have hrate : (closeWindow p s).rate = s.rate := (closeWindow_within p s).rate
  have hreply := serveRequest_replies hqueue
  rw [hreplies] at hreply
  have hdrained := (serveRequest_keeps p (closeWindow p s)).2.1
  rw [hqueue] at hdrained
  have hstamp : stampBytes (closeWindow p s)
      = [BitVec.ofNat 8 (s.clock.window.toNat / 256), BitVec.ofNat 8 s.clock.window.toNat] := by
    rw [stampBytes, closeWindow_clock]
    rfl
  rw [hstamp] at hreply
  have hexec : exec (.windowClose p) s = .next (serveRequest p (closeWindow p s)).settleLines := by
    rw [exec_windowClose hdue, hengine]
  refine ⟨_, _, _, hexec, hdrained, hreply, fun hunknown => ?_, fun hident hnone => ?_⟩
  · rw [runVerb_of_unknown hunknown]
    exact ⟨rfl, rfl⟩
  · subst hident hnone
    refine ⟨rfl, ?_⟩
    rw [← hrate]
    show bytesOfNat 2 Config.vendorCode ++ bytesOfNat 2 Config.partNumber
      ++ [byteOf Config.revision, rateCode (closeWindow p s).rate] = _
    cases (closeWindow p s).rate <;> decide

/-! #### A request that waits, and two that wait (R125, R126) -/

theorem waitAfterEntry_eq (wait : Bool) (n : Nat) : waitAfterEntry wait n = (wait || decide (3 ≤ n)) := by
  unfold waitAfterEntry
  by_cases h : 3 ≤ n <;> simp [h]

/-- With the samples made, a request of a whole message is offered and the engine looks (log 6). -/
theorem exec_ident {s : State} (hrun : s.run = .running) (hmade : s.clock.begun = true → s.clock.made = 32)
    (p : Port) (tag : Byte) :
    exec (.ident p tag []) s = .next (runEngine (offerMessage p [tag, 0x0D] s)).settleLines := by
  have hexec := whileRunning_of_running (f := submitRequest p [tag, 0x0D]) hrun
  unfold submitRequest at hexec
  rwa [atRequest_of_made hmade, if_pos (show [tag, 0x0D].length ≤ Config.messageBytes by simp [Config.messageBytes])] at hexec

/-- A request of a port without reply room waits in its queue, or is dropped from a full one (R125). -/
theorem ident_waits {s : State} {p : Port} (tag : Byte) (hrun : s.run = .running) (hmade : s.clock.begun = true → s.clock.made = 32)
    (hfull : 512 < (s.ports.get p).replies.length + 194) (hother : (s.ports.get p.other).requests = []) :
    exec (.ident p tag []) s = .next (offerMessage p [tag, 0x0D] s).settleLines := by
  rw [exec_ident hrun hmade]
  refine congrArg complete (runEngine_of_none fun q => ?_)
  have hlane := lane_offerMessage p [tag, 0x0D] s
  rw [Bool.eq_false_iff, ne_eq, eligible_iff]
  obtain rfl | rfl := Port.eq_or_other p q
  · rw [hlane.receiver.replies]
    omega
  · rw [hlane.other]
    exact fun h => h.1 hother

/-- All that the offer of a message does (R125). -/
theorem offerMessage_eq (p : Port) (m : List Byte) (s : State) :
    let x := s.ports.get p
    let dropped := min 4294967295 (x.counters.dropped + 1)
    offerMessage p m s = if x.requests.length < 4 then
        { s with ports := s.ports.set p { x with
            requests := x.requests ++ [m], wait := x.wait || decide (3 ≤ x.requests.length + 1) } }
      else { s with ports := s.ports.set p { x with counters := { x.counters with dropped := dropped } },
                    events := s.recording [.mgmtError p .dropped (min 16777215 dropped)] } := by
  intro x dropped
  unfold offerMessage
  dsimp only
  rw [waitAfterEntry_eq]
  rfl

/-! #### A request commanded within a span (R92) -/

/-- With its samples made, a period has none to finish before a request. -/
theorem atRequest_finishSamples {s : State} (hmade : s.clock.made < 32) : atRequest (finishSamples s) = finishSamples s :=
  atRequest_of_made fun _ => finishSamples_made s (Nat.le_of_lt hmade)

theorem atRequest_of_begun {s : State} (hbegun : s.clock.begun = true) : atRequest s = finishSamples s := if_pos hbegun

/-- A request of a period whose samples are not all made is taken as from the state in which they are (log 6). -/
theorem submitRequest_finishSamples {s : State} (hbegun : s.clock.begun = true) (hmade : s.clock.made < 32)
    (p : Port) (m : List Byte) :
    submitRequest p m s = submitRequest p m (finishSamples s) := by
  unfold submitRequest
  rw [atRequest_of_begun hbegun, atRequest_finishSamples hmade]

theorem finishSamples_run (s : State) : (finishSamples s).run = s.run := by
  unfold finishSamples
  split
  · exact (engine_runEngine _).run.trans (sample_makeSamples _ s).run
  · rfl

/-- Every request of a period whose samples are not all made is taken as from the state in which they are (R92; log 6). -/
theorem exec_request_finishSamples {s : State} {c : Instr} {p : Port} {tag verb : Byte} {operands : List Byte} {key : Bool}
    (hrun : s.run = .running) (hbegun : s.clock.begun = true) (hmade : s.clock.made < 32)
    (hc : c ∈ [.state p tag operands, .read p tag operands, .write p tag operands, .apply p tag operands, .discard p tag operands,
      .switch p tag operands, .auto p tag operands, .lock p tag operands key, .events p tag operands, .flush p tag operands,
      .save p tag operands, .counters p tag operands, .ident p tag operands, .badVerb p tag verb operands]) :
    exec c s = exec c (finishSamples s) := by
  have hrun' : (finishSamples s).run = .running := (finishSamples_run s).trans hrun
  have hsubmit : ∀ m, whileRunning (submitRequest p m) s = whileRunning (submitRequest p m) (finishSamples s) := fun m => by
    rw [whileRunning_of_running hrun, whileRunning_of_running hrun', submitRequest_finishSamples hbegun hmade]
  have hlock : execLock p tag operands key s = execLock p tag operands key (finishSamples s) := by
    unfold execLock
    rw [whileRunning_of_running hrun, whileRunning_of_running hrun', atRequest_of_begun hbegun, atRequest_finishSamples hmade]
  simp only [List.mem_cons, List.not_mem_nil, or_false] at hc
  rcases hc with rfl | rfl | rfl | rfl | rfl | rfl | rfl | rfl | rfl | rfl | rfl | rfl | rfl | rfl
  on_goal 8 => exact hlock
  all_goals exact hsubmit _

/-- Settles O41: the lane path, a request that waits or is dropped, two requests in turn, and a request within a span. -/
theorem laneRequestIsServed : Obligations.LaneRequestIsServed := by
  unfold Obligations.LaneRequestIsServed
  refine ⟨fun s p f tag verb operands hdue hserve hrx ho hkind hlane hbusy hbody hmode =>
      laneRequest_executed hdue hserve hrx ho hkind hlane hbusy hbody hmode,
    fun s p tag hrun hmade hfull hother => ?_, fun s p tag tag' verb' operands' hrun hmade hempty hwaiting hroom => ?_,
    fun s c p tag verb operands key hrun hbegun hmade hc =>
      ⟨exec_request_finishSamples hrun hbegun hmade hc, finishSamples_made s (Nat.le_of_lt hmade), fun hlast => ?_⟩⟩
  · rw [ident_waits tag hrun hmade hfull hother, offerMessage_eq]
  · intro entered
    have hoffer : offerMessage p [tag, 0x0D] s = entered := by
      rw [offerMessage_eq]
      simp [hempty, entered]
    have hp : (entered.ports.get p).requests = [[tag, 0x0D]] ∧ (entered.ports.get p).replies = (s.ports.get p).replies := by
      simp [entered]
    have hq : entered.ports.get p.other = s.ports.get p.other := by simp [entered]
    rw [exec_ident hrun hmade, hoffer]
    refine congrArg complete ?_
    split
    · next hboth =>
      refine runEngine_of_both fun q => ?_
      obtain rfl | rfl := Port.eq_or_other p q
      · exact ⟨⟨_, hp.1⟩, by rw [hp.2]; exact hboth⟩
      · rw [hq]; exact ⟨⟨_, hwaiting⟩, hroom⟩
    · next hfull =>
      exact runEngine_passes_over hp.1 (by rw [hq]; exact hwaiting) (by rw [hp.2]; omega) (by rw [hq]; exact hroom)
  · rw [exec_programSample_of_last hrun hbegun hlast, finishSamples_of_lt hmade, hlast]
    rfl

end Sys2Proof.Machine

/-! ### What the controller does at a window, and the room it takes in the event queue (R64 to R67, R75, R76, R145) -/

namespace Sys2Proof.Machine

/-- The frame of a decision that leaves the mode, the alignment record and the tables, and that takes at most `n` bytes of the event
queue. -/
structure AskWithin (n : Nat) (s t : State) : Prop where
  ask : AskFrame s t
  fill : fillOf t.events.records ≤ fillOf s.events.records + n

theorem AskFrame.trans {s t u : State} (h1 : AskFrame s t) (h2 : AskFrame t u) : AskFrame s u :=
  ⟨h1.control.trans h2.control, h2.align.trans h1.align, h2.tables.trans h1.tables, h2.mode.trans h1.mode, h2.q.trans h1.q,
    h2.len.trans h1.len⟩

theorem AskWithin.refl (n : Nat) (s : State) : AskWithin n s s := ⟨.refl s, Nat.le_add_right _ _⟩

theorem AskWithin.trans {m n : Nat} {s t u : State} (h1 : AskWithin m s t) (h2 : AskWithin n t u) : AskWithin (m + n) s u :=
  ⟨h1.ask.trans h2.ask, by have := h1.fill; have := h2.fill; omega⟩

theorem AskWithin.mono {m n : Nat} {s t : State} (h : AskWithin m s t) (hmn : m ≤ n) : AskWithin n s t :=
  ⟨h.ask, h.fill.trans (Nat.add_le_add_left hmn _)⟩

/-- A frame that begins at a state from which only the controller's record differs, with its mode and its fade as they were. -/
theorem AskWithin.after {n : Nat} {s t : State} {c : Controller} (h : AskWithin n { s with ctrl := c } t)
    (hmode : c.mode = s.ctrl.mode) (hq : c.q = s.ctrl.q) (hlen : c.len = s.ctrl.len) (hdebounce : c.debounce = s.ctrl.debounce) :
    AskWithin n s t := by
  have hctrl : AskFrame s { s with ctrl := c } := ⟨frame_ctrl s c hdebounce, rfl, rfl, hmode, hq, hlen⟩
  exact ⟨hctrl.trans h.ask, h.fill⟩

theorem within_ite {n : Nat} {s t u : State} {c : Prop} [Decidable c] (ht : AskWithin n s t) (hu : AskWithin n s u) :
    AskWithin n s (if c then t else u) :=
  ite_of ht hu

theorem fillOf_offer (q : EventQueue) (r : EventRecord) : fillOf (q.offer r).records ≤ fillOf q.records + r.size := by
  unfold EventQueue.offer
  split
  · simp [fillOf]
  · exact Nat.le_add_right _ _

theorem within_offerEvent (b : EventBody) (s : State) : AskWithin (8 + b.detailLength) s (offerEvent b s) :=
  ⟨⟨frame_offerEvent b s, rfl, rfl, rfl, rfl, rfl⟩, fillOf_offer _ _⟩

/-- A record with no detail, or with 4 bytes of it, takes at most 12 bytes (R144). -/
theorem within_offerEvent_small {b : EventBody} (h : b.detailLength ≤ 4) (s : State) : AskWithin 12 s (offerEvent b s) :=
  (within_offerEvent b s).mono (by omega)

/-! #### The decisions of the controller (R62 to R67, R69, R75, R76) -/

theorem within_cancelPendingSwitch (s : State) : AskWithin 12 s (cancelPendingSwitch s) := by
  unfold cancelPendingSwitch
  split
  · exact .refl _ s
  · exact (within_offerEvent_small (b := .pendingCancelled _ _) (Nat.le_refl 4) _).after rfl rfl rfl rfl

theorem within_scheduleStart (n : Nat) (a : StartAction) (p : Port) (c : SwitchCause) (s : State) :
    AskWithin n s (scheduleStart a p c s) :=
  ⟨ask_scheduleStart a p c s, Nat.le_add_right _ _⟩

theorem within_createPendingSwitch (r : PendingSwitch) (s : State) : AskWithin 12 s (createPendingSwitch r s) :=
  ⟨ask_createPendingSwitch r s, (within_cancelPendingSwitch s).fill⟩

theorem within_resolveDegraded (y : Port) (s : State) : AskWithin 12 s (resolveDegraded y s) :=
  within_ite (.refl _ s) ((within_cancelPendingSwitch s).trans (within_scheduleStart 0 .fade y .failure _))

theorem within_setDegraded (s : State) : AskWithin 12 s (setDegraded s) :=
  within_ite (.refl _ s) ((within_offerEvent_small (b := .degraded _) (Nat.zero_le 4) _).after rfl rfl rfl rfl)

theorem within_clearDegraded (n : Nat) (s : State) : AskWithin n s (clearDegraded s) :=
  (AskWithin.refl n _).after rfl rfl rfl rfl

theorem within_openingChoice (n : Nat) (p : Port) (s : State) : AskWithin n s (openingChoice p s) := by
  unfold openingChoice
  split
  · exact within_scheduleStart n _ _ _ s
  · exact within_ite ((AskWithin.refl n _).after rfl rfl rfl rfl) (.refl n s)

theorem within_openingRechoice (n : Nat) (p : Port) (s : State) : AskWithin n s (openingRechoice p s) :=
  within_ite (within_openingChoice n p s) (.refl n s)

theorem within_withdrawStart (s : State) : AskWithin 12 s (withdrawStart s) := by
  unfold withdrawStart
  split
  · exact .refl _ s
  · refine AskWithin.after (c := { s.ctrl with scheduled := none }) ?_ rfl rfl rfl rfl
    dsimp only
    split
    · exact within_openingRechoice _ _ _
    · exact .refl _ _
    · exact within_ite (.refl _ _) (within_setDegraded _)
    · exact within_ite (.refl _ _) (within_setDegraded _)

theorem within_onAirFailed (x : Port) (s : State) : AskWithin 12 s (onAirFailed x s) :=
  within_ite (within_resolveDegraded _ s) (within_setDegraded s)

theorem within_incomingFailed (x : Port) (s : State) : AskWithin 12 s (incomingFailed x s) :=
  within_ite (.refl _ s) (within_ite (within_scheduleStart _ _ _ _ s) (within_setDegraded s))

/-- Every response to a verdict change but an abandoned opening leaves the mode, the alignment record and the tables. -/
theorem within_respondVerdict {p : Port} {old new : Verdict} {s : State}
    (h : s.ctrl.mode = .opening p → new ≠ .failed) : AskWithin 12 s (respondVerdict p old new s) := by
  have hs := AskWithin.refl 12 s
  have hwithdraw := within_withdrawStart s
  have hclear := within_clearDegraded 12 s
  unfold respondVerdict
  split
  · exact within_ite (within_ite hwithdraw hs) (within_ite (within_openingChoice _ p s) hs)
  · next x hmode =>
    rw [if_neg fun hfailed : p = x ∧ new = .failed => h (hfailed.1 ▸ hmode) hfailed.2]
    exact hs
  · exact within_ite (within_ite (within_onAirFailed _ s) (within_ite hclear hs))
      (within_ite (within_ite hwithdraw hs) (within_ite (within_resolveDegraded p s) hs))
  · exact within_ite (within_ite hwithdraw hs) (within_ite (within_incomingFailed _ s) (within_ite hclear hs))

theorem within_resetHoldoff (s : State) : AskWithin 12 s (resetHoldoff s) := by
  unfold resetHoldoff cancelRevert
  refine AskWithin.after (c := { s.ctrl with holdoff := 0 }) ?_ rfl rfl rfl rfl
  split
  · exact within_cancelPendingSwitch _
  · exact .refl _ _

theorem within_takeVerdictChange {p : Port} {old new : Verdict} {s : State} (h : s.ctrl.mode = .opening p → new ≠ .failed) :
    AskWithin 24 s (takeVerdictChange p old new s) :=
  (within_respondVerdict h).trans (within_ite (within_resetHoldoff _) (.refl 12 _))

theorem within_takeNotice (p : Port) (v : Verdict) (s : State) : AskWithin 12 s (takeNotice p v s) :=
  within_ite
    (within_ite (within_ite ((within_createPendingSwitch _ _).after rfl rfl rfl rfl) ((AskWithin.refl 12 _).after rfl rfl rfl rfl))
      (within_resetHoldoff s))
    (.refl _ s)

/-! #### The health report of a window (R21, R22, R34 to R36) -/

theorem within_handVerdict {p : Port} {h : HealthRecord} {s : State}
    (hfail : s.ctrl.mode = .opening p → h.verdict = .failed → (s.health.get p).verdict = .failed) :
    AskWithin 36 (s.setHealth p h) (handVerdict p h s) := by
  unfold handVerdict
  dsimp only
  split
  · exact .refl _ _
  · next hchanged =>
    refine (within_offerEvent_small (b := .verdict _ _ _ _) (Nat.le_refl 4) _).trans (within_takeVerdictChange fun hmode hnew => ?_)
    exact hchanged (hnew.trans (hfail hmode hnew).symm)

theorem within_evaluateWindow {p : Port} {r : WindowReport} {s : State}
    (hfail : s.ctrl.mode = .opening p → (evaluated s.live r (s.health.get p) (s.health.get p.other)).verdict = .failed
      → (s.health.get p).verdict = .failed) :
    ∃ h, AskWithin 48 (s.setHealth p h) (evaluateWindow p r s) :=
  ⟨_, (within_handVerdict hfail).trans (within_takeNotice _ _ _)⟩

/-- A window's health report writes the port's health record, and else leaves the mode, the alignment record and the tables, unless it
fails the port that an opening goes to. -/
theorem within_takeHealthReport {p : Port} {r : WindowReport} {s : State}
    (hfail : s.ctrl.mode = .opening p → (healthAfter s.live r (s.health.get p) (s.health.get p.other)).verdict = .failed
      → (s.health.get p).verdict = .failed) :
    ∃ h, AskWithin 48 (s.setHealth p h) (takeHealthReport p r s) := by
  unfold healthAfter at hfail
  have hforced : r.rx ≠ .locked → ∃ h, AskWithin 48 (s.setHealth p h)
      (if r.changed && (s.health.get p).lockView then handVerdict p (forcedFailure r.rx (s.health.get p)) s else s) := by
    intro hrx
    rw [if_neg hrx] at hfail
    split
    · next hcond =>
      rw [if_pos hcond] at hfail
      exact ⟨_, (within_handVerdict hfail).mono (by omega)⟩
    · refine ⟨s.health.get p, ?_⟩
      rw [State.setHealth, PerPort.set_get]
      exact .refl _ s
  unfold takeHealthReport
  split
  · next hrx =>
    rw [if_pos hrx] at hfail
    cases hchanged : r.changed with
    | false =>
      rw [hchanged] at hfail
      exact within_evaluateWindow hfail
    | true =>
      obtain ⟨h, hh⟩ := within_evaluateWindow (p := p) (r := r) (s := s.setHealth p (lockEntry (s.health.get p)))
        fun _ _ => by rw [setHealth_health, PerPort.get_set_self]; rfl
      refine ⟨h, ?_⟩
      rwa [State.setHealth, setHealth_health, PerPort.set_set] at hh
  all_goals
    next hrx => exact hforced (by rw [hrx]; decide)

end Sys2Proof.Machine

/-! ### The show position of a program span (R54, R55) -/

namespace Sys2Proof.Machine

/-! #### What the position is read from -/

/-- At the first sample of a span, the position is read at that sample's own ring time (R53, R55). -/
theorem restamped_eq {s : State} (hmade : s.clock.made = 0) : s.restamped = s.stampedIn s.ctrl.mode := by
  have htime : ∀ x, windowTime s.clock.window - BitVec.ofNat 40 (s.mixer.delays.get x) = s.ringTime x := fun x => by
    simp [State.ringTime, State.programTime, hmade]
  unfold State.restamped State.stampedIn
  simp only [htime, ringSlot_ringTime, slotOffset, ringTime_toNat]
  cases s.ctrl.mode with
  | idle => rfl
  | opening x => cases s.readSlot x <;> rfl
  | on x => cases s.readSlot x <;> rfl
  | fade x => cases s.readSlot x <;> rfl

/-- What a sample reads of the rings, and the position it moves on from, is in these parts of the state. -/
structure SameReadings (s t : State) : Prop where
  ports : t.ports = s.ports
  clock : t.clock = s.clock
  delays : t.mixer.delays = s.mixer.delays
  position : t.align.position = s.align.position

theorem SameReadings.stampedIn {s t : State} (h : SameReadings s t) (mode : Mode) : t.stampedIn mode = s.stampedIn mode := by
  unfold State.stampedIn State.readSlot State.readTime
  rw [h.ports, h.clock, h.delays, h.position]

/-! #### The answers to a span start leave the position (R54, R57, R71) -/

theorem stand_takeScheduled (s : State) : StandFrame s (takeScheduled s) := by
  have hscheduled : ∀ st : ScheduledStart, StandFrame s (beginScheduled st s) := fun st =>
    stand_ite ((stand_beginTransition _ _ _).after rfl rfl) (stand_withdrawStart s)
  have hreversal : ∀ x : Port, StandFrame s (beginReversal x s) := fun x => stand_ite ⟨rfl, rfl⟩ (stand_withdrawStart s)
  unfold takeScheduled
  split
  · exact .refl s
  · next st hst =>
    refine stand_ite ?_ (.refl s)
    cases st.action with
    | opening => exact hscheduled st
    | fade => exact hscheduled st
    | reversal => exact hreversal st.target

theorem stand_answerScheduled (s : State) : StandFrame s (answerScheduled s) :=
  stand_ite ((stand_takeScheduled _).after rfl rfl) ⟨rfl, rfl⟩

theorem stand_answerNow (s : State) : StandFrame s (answerNow s) := by
  unfold answerNow
  dsimp only
  split
  · exact stand_ite ((stand_firePendingSwitch _ _).after rfl rfl) ⟨rfl, rfl⟩
  · exact ⟨rfl, rfl⟩

theorem stand_tableSpanStart (s : State) : StandFrame s (tableSpanStart s) :=
  stand_ite ((stand_meetApplyTrigger _).after rfl rfl) ⟨rfl, rfl⟩

theorem stand_sampleStep1 (s : State) : StandFrame s (sampleStep1 s) :=
  stand_ite (((stand_answerScheduled s).trans (stand_answerNow _)).trans (stand_tableSpanStart _)) (.refl s)

/-- Steps 1 and 2 of a sample leave all that it reads of the rings. -/
theorem sameReadings_steps (s : State) : SameReadings s (sampleStep2 (sampleStep1 s)) := by
  have h1 := frame_sampleStep1 s
  have h2 := sample_sampleStep2 (sampleStep1 s)
  obtain ⟨hclock, -, hposition, -⟩ := sampleStep2_keeps (sampleStep1 s)
  exact ⟨h2.ports.trans h1.ports, hclock.trans h1.clock, h2.readDelays.trans h1.readDelays,
    hposition.trans (stand_sampleStep1 s).position⟩

/-- The first sample of a span stamps the position of the state it is mixed in (R54; log 14). -/
theorem exec_firstSample {s : State} (h : s.AtSpanStart) :
    ∃ t, exec .programSample s = .next t ∧ t.align.position = s.stampedIn (sampleStep2 (sampleStep1 s)).ctrl.mode := by
  obtain ⟨hrun, hbegun, hmade⟩ := h
  have hsame := sameReadings_steps s
  have hmade' : (sampleStep2 (sampleStep1 s)).clock.made = 0 := by rw [hsame.clock, hmade]
  have hfirst : (makeSample s).clock.made ≠ Config.spanLength := by rw [makeSample_made, hmade]; decide
  have hsample : makeSample s = countSample (recordAdoption s (sampleStep5 (sampleMixed s))) := by
    refine if_neg ?_
    show (recordAdoption s _).clock.made + 1 ≠ 32
    rw [stepsTo5_clock, hmade]
    decide
  have hexec : exec .programSample s = .next (makeSample s).settleLines := by
    have hsamples := whileRunning_of_running (f := nextSample) hrun
    unfold nextSample lookAfterSpan at hsamples
    rwa [atSample_of_begun hbegun (by omega), if_neg hfirst] at hsamples
  refine ⟨_, hexec, ?_⟩
  rw [settleLines_align, hsample]
  calc (recordAdoption s (sampleStep5 (sampleMixed s))).align.position
      = (sampleMixed s).align.position := ((stand_sampleStep5 _).trans (stand_recordAdoption _ _)).position
    _ = (sampleRestamp (sampleStep2 (sampleStep1 s))).align.position :=
        congrArg Alignment.position (sampleStep3_keeps (sampleRestamp (sampleStep2 (sampleStep1 s)))).2.2
    _ = (sampleStep2 (sampleStep1 s)).restamped := by unfold sampleRestamp; rw [if_pos hmade']; rfl
    _ = s.stampedIn (sampleStep2 (sampleStep1 s)).ctrl.mode := by rw [restamped_eq hmade', hsame.stampedIn]

/-! #### The state that the answers leave (R57 to R59, R68, R69, R71) -/

theorem convertReversal_mode (s : State) : (convertReversal s).ctrl.mode = s.ctrl.mode := by
  unfold convertReversal
  split <;> rfl

/-- A cut enters ON_target, and a transition the state that leads there (R58, R59). -/
theorem beginTransition_mode (target : Port) (cause : SwitchCause) (s : State) :
    (beginTransition target cause s).ctrl.mode = enteredMode s.ctrl.mode target (s.tables.live.fadeSpans cause) := by
  unfold beginTransition
  dsimp only
  split
  · exact convertReversal_mode _
  · rfl

theorem openingChoice_pending (p : Port) (s : State) : (openingChoice p s).ctrl.pendingSwitch = s.ctrl.pendingSwitch := by
  unfold openingChoice
  split
  · rfl
  · split <;> rfl

theorem setDegraded_pending (s : State) : (setDegraded s).ctrl.pendingSwitch = s.ctrl.pendingSwitch := by
  unfold setDegraded
  split <;> rfl

theorem withdrawStart_pending (s : State) : (withdrawStart s).ctrl.pendingSwitch = s.ctrl.pendingSwitch := by
  unfold withdrawStart
  split
  · rfl
  · dsimp only
    split
    · unfold openingRechoice
      split
      · exact openingChoice_pending _ _
      · rfl
    · rfl
    all_goals
      split
      · rfl
      · exact setDegraded_pending _

/-- A scheduled start that is taken enters its state when its target is ready, and is withdrawn otherwise (R58, R68, R69). -/
theorem takeScheduled_mode {s : State} {act : StartAction} {y : Port} {cause : SwitchCause}
    (hs : s.ctrl.scheduled = some ⟨act, y, cause⟩)
    (hfit : act = .opening ∧ s.ctrl.mode = .idle ∨ act = .fade ∧ s.ctrl.mode = .on y.other
      ∨ act = .reversal ∧ s.ctrl.mode = .fade y) :
    (takeScheduled s).ctrl.mode = if s.ready y = false then s.ctrl.mode
      else if act = .reversal then .fade y.other
      else if s.tables.live.fadeSpans cause = 0 then .on y
      else if act = .opening then .opening y else .fade y.other := by
  have hwithdrawn : (withdrawStart s).ctrl.mode = s.ctrl.mode := (within_withdrawStart s).ask.mode
  have hbegun : (beginScheduled ⟨act, y, cause⟩ s).ctrl.mode
      = if s.ready y = false then s.ctrl.mode else enteredMode s.ctrl.mode y (s.tables.live.fadeSpans cause) := by
    unfold beginScheduled
    cases hready : s.ready y with
    | false => simpa [hready] using hwithdrawn
    | true => simpa [hready] using beginTransition_mode y cause _
  unfold takeScheduled
  rw [hs]
  obtain ⟨rfl, hmode⟩ | ⟨rfl, hmode⟩ | ⟨rfl, hmode⟩ := hfit
  · rw [hmode] at hbegun ⊢
    exact hbegun
  · rw [hmode] at hbegun ⊢
    simpa [startFits, enteredMode] using hbegun
  · rw [hmode] at hwithdrawn ⊢
    unfold beginReversal
    cases hready : s.ready y with
    | false => simpa [startFits, hready] using hwithdrawn
    | true => simp [startFits, hready]

theorem takeScheduled_pending (s : State) : (takeScheduled s).ctrl.pendingSwitch = s.ctrl.pendingSwitch := by
  have hbegun : ∀ st : ScheduledStart, (beginScheduled st s).ctrl.pendingSwitch = s.ctrl.pendingSwitch := fun st => by
    unfold beginScheduled
    split
    · exact beginTransition_pending _ _ _
    · exact withdrawStart_pending s
  have hreversed : ∀ x : Port, (beginReversal x s).ctrl.pendingSwitch = s.ctrl.pendingSwitch := fun x => by
    unfold beginReversal
    split
    · rfl
    · exact withdrawStart_pending s
  unfold takeScheduled
  split
  · rfl
  · next st hst =>
    split
    · cases st.action with
      | opening => exact hbegun st
      | fade => exact hbegun st
      | reversal => exact hreversed st.target
    · rfl

/-- A pending switch record that fires enters its state when its target is ready, and is removed in any case (R71). -/
theorem firePendingSwitch_ctrl (r : PendingSwitch) (s : State) :
    (firePendingSwitch r s).ctrl.pendingSwitch = none
      ∧ (firePendingSwitch r s).ctrl.mode = if s.ready r.target = false then s.ctrl.mode
          else enteredMode s.ctrl.mode r.target (s.tables.live.fadeSpans r.cause) := by
  unfold firePendingSwitch
  cases hready : s.ready r.target with
  | false => exact ⟨cancelPendingSwitch_none s, cancelPendingSwitch_mode s⟩
  | true => exact ⟨beginTransition_pending _ _ _, beginTransition_mode _ _ _⟩

/-! #### Which record an answer meets (R57, R70, R71) -/

theorem armedSwitch_of_none {s : State} (h : s.ctrl.pendingSwitch = none) : s.armedSwitch = none := by
  unfold State.armedSwitch
  rw [h]
  cases s.ctrl.mode <;> rfl

theorem armedSwitch_of_armed {s : State} {r : PendingSwitch} (h : s.SwitchArmed) (hr : s.ctrl.pendingSwitch = some r) :
    s.armedSwitch = some r := by
  obtain ⟨hmode, -⟩ := h r hr
  unfold State.armedSwitch
  rw [hr, hmode]
  simp

theorem switchAtSpanStart_eq (s : State) :
    s.switchAtSpanStart = s.armedSwitch.filter fun r => decide (r.trigger = .now) := by
  unfold State.switchAtSpanStart
  rcases s.armedSwitch with - | ⟨target, trigger, cause⟩
  · rfl
  · cases trigger <;> rfl

theorem switchAtMark_eq (s : State) (m : MarkReport) :
    s.switchAtMark m = if s.ctrl.mode = .on m.port
      then s.armedSwitch.filter fun r => decide (r.trigger = .atMark ∨ r.trigger = .atSong m.song) else none := by
  unfold State.switchAtMark
  rcases s.armedSwitch with - | ⟨target, trigger, cause⟩
  · rfl
  · cases trigger with
    | now => simp [Option.filter_some]
    | atMark => simp [Option.filter_some]
    | atSong n => by_cases hn : n = m.song <;> simp [Option.filter_some, hn]

theorem answerScheduled_of_none {s : State} (h : s.mixer.owedStart = false ∨ s.ctrl.scheduled = none) :
    answerScheduled s = { s with mixer := { s.mixer with owedStart := false } } := by
  unfold answerScheduled takeScheduled
  obtain h | h := h
  · rw [h]; rfl
  · simp only [h]; exact ite_self _

theorem answerNow_of_none {s : State} (h : s.mixer.owedSwitch = false ∨ s.switchAtSpanStart = none) :
    answerNow s = { s with mixer := { s.mixer with owedSwitch := false } } := by
  have hwrite : ({ s with mixer := { s.mixer with owedSwitch := false } } : State).switchAtSpanStart = s.switchAtSpanStart := rfl
  unfold answerNow
  dsimp only
  rw [hwrite]
  obtain h | h := h
  · rw [h]
    cases s.switchAtSpanStart <;> rfl
  · rw [h]

/-- A NOW record that is owed its span start fires there (R71). -/
theorem answerNow_of_owed {s : State} {r : PendingSwitch} (h : s.SwitchArmed) (hr : s.ctrl.pendingSwitch = some r)
    (htrigger : r.trigger = .now) (howed : s.mixer.owedSwitch = true) :
    answerNow s = firePendingSwitch r { s with mixer := { s.mixer with owedSwitch := false } } := by
  have hwrite : ({ s with mixer := { s.mixer with owedSwitch := false } } : State).switchAtSpanStart = some r := by
    rw [switchAtSpanStart_eq]
    show s.armedSwitch.filter _ = _
    rw [armedSwitch_of_armed h hr]
    simp [htrigger]
  unfold answerNow
  dsimp only
  rw [hwrite, howed]
  rfl

theorem controllerMark_of_none {s : State} (m : MarkReport) (h : s.ctrl.pendingSwitch = none) : controllerMark m s = s := by
  have hnone : s.switchAtMark m = none := by
    rw [switchAtMark_eq, armedSwitch_of_none h]
    exact ite_self _
  unfold controllerMark
  rw [hnone]

/-- Step 1 of a span's first sample leaves of the controller what its answers to the span start do. -/
theorem sampleStep1_ctrl {s : State} (hmade : s.clock.made = 0) :
    (sampleStep1 s).ctrl = (answerNow (answerScheduled s)).ctrl := by
  unfold sampleStep1
  rw [if_pos hmade]
  exact tableSpanStart_ctrl _

/-- Step 2 of a sample with no mark, or with no record for its mark to meet, leaves the controller's record (R71). -/
theorem sampleStep2_ctrl {s : State} (h : s.sampleMark ≠ none → s.ctrl.pendingSwitch = none) :
    (sampleStep2 s).ctrl = s.ctrl := by
  cases hmark : s.sampleMark with
  | none => rw [sampleStep2_of_none hmark]
  | some m =>
    have hnone := h (by rw [hmark]; simp)
    rw [sampleStep2_of_some hmark, answerMark, tableMark_ctrl, noteMark_eq, controllerMark_of_none]
    exact hnone

/-- A record that waits for the mark of a sample enters its state there (R71). -/
theorem sampleStep2_mode_of_mark {s : State} {m : MarkReport} {r : PendingSwitch} (hmark : s.sampleMark = some m)
    (h : s.SwitchArmed) (hr : s.ctrl.pendingSwitch = some r) (hport : m.port = r.target.other)
    (htrigger : r.trigger = .atMark ∨ r.trigger = .atSong m.song) :
    (sampleStep2 s).ctrl.mode = if s.ready r.target = false then s.ctrl.mode
      else enteredMode s.ctrl.mode r.target (s.tables.live.fadeSpans r.cause) := by
  have hmeets : ∀ mixer : Mixer, ({ s with mixer := mixer } : State).switchAtMark m = some r := fun mixer => by
    rw [switchAtMark_eq, if_pos (by rw [hport]; exact (h r hr).1)]
    show s.armedSwitch.filter _ = _
    rw [armedSwitch_of_armed h hr]
    simpa using htrigger
  rw [sampleStep2_of_some hmark, answerMark, tableMark_ctrl, noteMark_eq]
  unfold controllerMark
  rw [hmeets]
  exact (firePendingSwitch_ctrl r _).2

/-- The mark of a sample depends on the controller's state, on the mark kept for it, and on what it reads of the rings (R93). -/
theorem SameReadings.sampleMark {s t : State} (h : SameReadings s t) (hmode : t.ctrl.mode = s.ctrl.mode)
    (hearly : t.mixer.earlyMark = s.mixer.earlyMark) : t.sampleMark = s.sampleMark := by
  unfold State.sampleMark State.markNow State.ringSlot State.ringTime State.programTime
  rw [hearly, hmode, h.ports, h.clock, h.delays]

theorem sameReadings_step1 (s : State) : SameReadings s (sampleStep1 s) :=
  have h := frame_sampleStep1 s
  ⟨h.ports, h.clock, h.readDelays, (stand_sampleStep1 s).position⟩

/-- With port x on air, the mark of the sample is the one read on x (R93). -/
theorem sampleMark_of_markRead {s : State} {x : Port} {song : Byte} (hmode : s.ctrl.mode = .on x)
    (hearly : s.mixer.earlyMark = none) (hmark : s.markRead x = some song) : s.sampleMark = some ⟨x, song⟩ := by
  unfold State.markRead at hmark
  unfold State.sampleMark State.markNow
  rw [hearly, hmode]
  simp only [Mode.markPort, ringSlot_ringTime, slotOffset, ringTime_toNat]
  cases hslot : s.readSlot x with
  | empty => rw [hslot] at hmark; cases hmark
  | predicted m audio => rw [hslot] at hmark; cases hmark
  | valid m audio =>
    rw [hslot] at hmark
    dsimp only at hmark ⊢
    split at hmark
    · next hoffset => rw [if_pos hoffset, Option.some.inj hmark]
    · cases hmark

/-! #### The three ways to the state of a span (R54, R57, R71) -/

/-- Nothing is answered. -/
theorem mode_of_unanswered {s : State} (hmade : s.clock.made = 0) (hstart : s.mixer.owedStart = false)
    (hswitch : s.mixer.owedSwitch = false) (hmark : s.sampleMark ≠ none → s.ctrl.pendingSwitch = none) :
    (sampleStep2 (sampleStep1 s)).ctrl.mode = s.ctrl.mode := by
  have hscheduled := answerScheduled_of_none (.inl hstart)
  have h1 : (sampleStep1 s).ctrl = s.ctrl := by
    rw [sampleStep1_ctrl hmade, answerNow_of_none (.inl (by rw [hscheduled]; exact hswitch)), hscheduled]
  have hsame := (sameReadings_step1 s).sampleMark (by rw [h1]) (frame_sampleStep1 s).earlyMark
  rw [sampleStep2_ctrl (by rw [hsame, h1]; exact hmark), h1]

/-- A scheduled start is answered, beside which there is no pending switch record. -/
theorem mode_of_scheduled {s : State} (hmade : s.clock.made = 0) (harmed : s.SwitchArmed) (howed : s.mixer.owedStart = true)
    (hscheduled : s.ctrl.scheduled ≠ none) :
    (sampleStep2 (sampleStep1 s)).ctrl.mode
      = (takeScheduled { s with mixer := { s.mixer with owedStart := false } }).ctrl.mode := by
  have hanswer : answerScheduled s = takeScheduled { s with mixer := { s.mixer with owedStart := false } } := by
    unfold answerScheduled
    rw [howed]
    rfl
  have hnone : (answerScheduled s).ctrl.pendingSwitch = none := by
    rw [hanswer, takeScheduled_pending]
    exact pending_none_of_scheduled harmed hscheduled
  have h1 : (sampleStep1 s).ctrl = (answerScheduled s).ctrl := by
    rw [sampleStep1_ctrl hmade, answerNow_of_none (.inr (by rw [switchAtSpanStart_eq, armedSwitch_of_none hnone]; rfl))]
  rw [sampleStep2_ctrl (fun _ => by rw [h1]; exact hnone), h1, hanswer]

/-- A pending switch record fires, at the span start or at the mark of its first sample. -/
theorem mode_of_pending {s : State} {r : PendingSwitch} {song : Byte} (hmade : s.clock.made = 0) (harmed : s.SwitchArmed)
    (hr : s.ctrl.pendingSwitch = some r)
    (hmeets : r.trigger = .now ∧ s.mixer.owedSwitch = true
      ∨ s.mixer.earlyMark = none ∧ s.mixer.owedApply = false ∧ s.markRead r.target.other = some song
        ∧ (r.trigger = .atMark ∨ r.trigger = .atSong song)) :
    (sampleStep2 (sampleStep1 s)).ctrl.mode = if s.ready r.target = false then s.ctrl.mode
      else enteredMode s.ctrl.mode r.target (s.tables.live.fadeSpans r.cause) := by
  obtain ⟨hmode, hscheduled⟩ := harmed r hr
  have hstart := answerScheduled_of_none (s := s) (.inr hscheduled)
  obtain ⟨htrigger, howed⟩ | ⟨hearly, happly, hmark, htrigger⟩ := hmeets
  · have h1 : (sampleStep1 s).ctrl
        = (firePendingSwitch r { s with mixer := { s.mixer with owedStart := false, owedSwitch := false } }).ctrl := by
      rw [sampleStep1_ctrl hmade, hstart]
      exact congrArg State.ctrl (answerNow_of_owed harmed hr htrigger howed)
    obtain ⟨hnone, hentered⟩ := firePendingSwitch_ctrl r
      { s with mixer := { s.mixer with owedStart := false, owedSwitch := false } }
    rw [sampleStep2_ctrl (fun _ => by rw [h1]; exact hnone), h1]
    exact hentered
  · have hnot : r.trigger ≠ .now := by obtain h | h := htrigger <;> rw [h] <;> simp
    have hswitch : s.switchAtSpanStart = none := by
      rw [switchAtSpanStart_eq, armedSwitch_of_armed harmed hr]
      simpa using hnot
    have h1 : sampleStep1 s = { s with mixer :=
        { s.mixer with owedStart := false, owedSwitch := false, owedApply := false } } := by
      unfold sampleStep1 controllerSpanStart
      rw [if_pos hmade, answerNow_of_none (.inr (by rw [hstart]; exact hswitch)), hstart]
      unfold tableSpanStart
      simp [happly]
    have hmark1 := (sameReadings_step1 s).sampleMark (by rw [h1]) (frame_sampleStep1 s).earlyMark
    rw [sampleMark_of_markRead hmode hearly hmark, h1] at hmark1
    rw [h1]
    exact sampleStep2_mode_of_mark (r := r) hmark1 harmed hr rfl htrigger

/-- Settles O18: the first sample stamps the position in the state its answers leave, and each kind of answer gives that state. -/
theorem firstSampleRestampsTheSpan : Obligations.FirstSampleRestampsTheSpan := by
  unfold Obligations.FirstSampleRestampsTheSpan
  intro stamps
  have hfirst : ∀ s : State, s.AtSpanStart → stamps s (sampleStep2 (sampleStep1 s)).ctrl.mode := fun s h => exec_firstSample h
  have hmade : ∀ s : State, s.AtSpanStart → s.clock.made = 0 := fun s h => h.2.2
  refine ⟨hfirst, fun s h hstart hswitch hmark => ?_, fun s act y cause h harmed howed hs hfit => ?_,
    fun s r song h harmed hr hmeets => ?_⟩
  · rw [← mode_of_unanswered (hmade s h) hstart hswitch hmark]
    exact hfirst s h
  · have hmode := (mode_of_scheduled (hmade s h) harmed howed (by rw [hs]; simp)).trans (takeScheduled_mode hs hfit)
    exact hmode ▸ hfirst s h
  · have hmode := mode_of_pending (hmade s h) harmed hr hmeets
    rw [(harmed r hr).1] at hmode
    rw [(harmed r hr).1]
    exact hmode ▸ hfirst s h

end Sys2Proof.Machine

/-! ### A window as the alignment unit takes it (R15, R39, R40, R49) -/

namespace Sys2Proof.Machine

/-! #### The report, the slot and the state it is taken in -/

/-- The report that port p's next window hands on (R15). -/
def State.windowReport (s : State) (p : Port) : WindowReport :=
  reportFor s.live p s.clock.window (s.outcome p) (s.ports.get p) (s.portAfterWindow p)

/-- The slot that port p's next window leaves where it writes, as the alignment unit reads it (R13, R49). -/
def State.windowSlot (s : State) (p : Port) : Slot :=
  (s.portAfterWindow p).ring.getD (ringIndex s.clock.window) .empty

/-- The state of port p's next window once the health monitor has taken its report (R5 step 4). -/
def State.examined (s : State) (p : Port) : State :=
  takeHealthReport p (s.windowReport p) (s.transitioned p)

theorem reported_eq (s : State) (p : Port) :
    s.reported p = takeAlignmentReport p (s.windowReport p) (s.windowSlot p) (s.examined p) :=
  rfl

/-- The slot read is the one of R13, unless the ring ends before it. -/
theorem windowSlot_eq (s : State) (p : Port) :
    s.windowSlot p = if s.clock.window.toNat % 64 < (s.ports.get p).ring.length then
      slotFor s.clock.window (s.portAfterWindow p).rx (s.outcome p) (s.portAfterWindow p).expected (s.portAfterWindow p).lastValid
      else .empty := by
  show ((s.ports.get p).ring.set (s.clock.window.toNat % 64) _).getD (s.clock.window.toNat % 64) .empty = _
  split
  · next hlt => simp [List.getD_eq_getElem?_getD, hlt]; rfl
  · next hge => simp [List.getD_eq_getElem?_getD, hge]

/-- What the alignment unit reads of a window, besides the report and the slot, is as it was before. -/
structure AlignmentStands (s t : State) : Prop where
  align : t.align = s.align
  tables : t.tables = s.tables
  mode : t.ctrl.mode = s.ctrl.mode
  clock : t.clock = s.clock

/-- The room that records of these contents take (R143, R145). -/
def roomOf (bodies : List EventBody) : Nat :=
  (bodies.map fun b => 8 + b.detailLength).sum

theorem roomOf_append (xs ys : List EventBody) : roomOf (xs ++ ys) = roomOf xs + roomOf ys := by simp [roomOf]

theorem roomOf_ite {n : Nat} {c : Prop} [Decidable c] {bodies : List EventBody} (h : roomOf bodies ≤ n) :
    roomOf (if c then bodies else []) ≤ n :=
  ite_of (P := fun bodies => roomOf bodies ≤ n) h (Nat.zero_le n)

theorem fillOf_recording (s : State) (bodies : List EventBody) :
    fillOf (s.recording bodies).records ≤ fillOf s.events.records + roomOf bodies := by
  unfold State.recording
  generalize s.events = q
  induction bodies generalizing q with
  | nil => exact Nat.le_refl _
  | cons b rest ih =>
    have hoffer := fillOf_offer q ⟨b, BitVec.ofNat 32 s.clock.window.toNat⟩
    have hsize : EventRecord.size ⟨b, BitVec.ofNat 32 s.clock.window.toNat⟩ = 8 + b.detailLength := rfl
    have hrest := ih (q.offer ⟨b, BitVec.ofNat 32 s.clock.window.toNat⟩)
    have hroom : roomOf (b :: rest) = 8 + b.detailLength + roomOf rest := by simp [roomOf]
    rw [List.foldl_cons]
    omega

/-- A change of receiver state records at most PORT_STATE and one MGMT_ERROR (R6). -/
theorem fillOf_transitioned (s : State) (p : Port) :
    fillOf (s.transitioned p).events.records ≤ fillOf s.events.records + 24 := by
  have hrecords : roomOf (changeRecords p (s.ports.get p).rx (s.portAfterWindow p).rx (s.ports.get p)) ≤ 12 + 12 := by
    have hbroken : roomOf (brokenRecord p (s.ports.get p)) ≤ 12 := roomOf_ite (Nat.le_refl 12)
    unfold changeRecords
    rw [roomOf_append, ← ite_not]
    exact Nat.add_le_add (roomOf_ite (Nat.le_refl 12)) (roomOf_ite hbroken)
  rw [transitioned_eq]
  exact (fillOf_recording s _).trans (Nat.add_le_add_left hrecords _)

/-- Unless it fails the port that an opening goes to, a window reaches the alignment unit with all that the unit reads as it was. -/
theorem examined_stands {s : State} {p : Port}
    (hfail : s.ctrl.mode = .opening p →
      (healthAfter s.live (s.windowReport p) (s.health.get p) (s.health.get p.other)).verdict = .failed
      → (s.health.get p).verdict = .failed) :
    AlignmentStands s (s.examined p)
      ∧ fillOf (s.examined p).events.records ≤ fillOf (s.transitioned p).events.records + 48 := by
  obtain ⟨h, hh⟩ := within_takeHealthReport (p := p) (r := s.windowReport p) (s := s.transitioned p)
    (by rw [transitioned_eq]; exact hfail)
  have hbefore : AlignmentStands s (s.transitioned p) := by
    rw [transitioned_eq]
    exact ⟨rfl, rfl, rfl, rfl⟩
  exact ⟨⟨hh.ask.align.trans hbefore.align, hh.ask.tables.trans hbefore.tables, hh.ask.mode.trans hbefore.mode,
    hh.ask.control.clock.trans hbefore.clock⟩, hh.fill⟩

/-- After its reports a window changes neither the alignment record nor the controller's, and keeps the records placed. -/
theorem closeWindow_reported (p : Port) (s : State) :
    (closeWindow p s).align = (s.reported p).align ∧ (closeWindow p s).ctrl = (s.reported p).ctrl
      ∧ (s.reported p).events.records <+: (closeWindow p s).events.records := by
  have hlane := (lane_handWindowLane p (s.portAfterWindow p).rx (s.outcome p) (s.reported p)).trans (lane_stepDeframer p ageStep _)
  rw [closeWindow_eq]
  refine ⟨?_, ?_, Offered.records_prefix hlane.offered⟩
  · dsimp only
    rw [hlane.rest]
  · dsimp only
    rw [hlane.rest]

/-! #### The lead of a window (R39) -/

/-- A window has a lead when it is LOCKED and takes a valid DATA span with RUN set: the span's position less the window's time. -/
theorem windowReport_lead (s : State) (p : Port) :
    (s.windowReport p).lead = (s.taken p .data).bind fun f =>
      if (s.portAfterWindow p).rx = .locked ∧ f.run = true then
        some (signed40 (f.position - BitVec.ofNat 40 (32 * s.clock.window.toNat))) else none := by
  unfold State.windowReport reportFor WindowReport.lead State.taken
  dsimp only
  cases s.outcome p with
  | absent => rfl
  | check audio => rfl
  | valid f =>
    by_cases hkind : f.kind = .data
    · simp [hkind, windowTime]
    · simp [hkind]

theorem portAfterWindow_locked {s : State} {p : Port} {f : ForwardSpan} (hlocked : (s.ports.get p).rx = .locked)
    (ho : s.outcome p = .valid f) (hkind : f.kind = .data ∨ f.kind = .idle) : (s.portAfterWindow p).rx = .locked := by
  show (rxAfter s.live (s.ports.get p).rx _ _ (s.outcome p)).1 = .locked
  rw [hlocked, ho, rxAfter_locked_of_used hkind]

/-- A window of a LOCKED port that takes a valid DATA span with RUN set has a lead (R39). -/
theorem windowReport_lead_of_running {s : State} {p : Port} {f : ForwardSpan} (hlocked : (s.ports.get p).rx = .locked)
    (ho : s.outcome p = .valid f) (hkind : f.kind = .data) (hrun : f.run = true) :
    (s.windowReport p).lead = some (signed40 (f.position - BitVec.ofNat 40 (32 * s.clock.window.toNat))) := by
  rw [windowReport_lead]
  simp [State.taken, ho, hkind, hrun, portAfterWindow_locked hlocked ho (.inl hkind)]

@[simp] theorem PerPort.get_set_of_other {α : Type} (x : PerPort α) (p : Port) (v : α) : (x.set p.other v).get p = x.get p :=
  x.get_set_ne _ _ v (Port.ne_other p)

/-! #### The stopped run and the recentre on air (R44, R46, R49, R50) -/

/-- A window that is absent, that brings RUN clear, or that is predicted with RUN clear counts toward the stopped run (R49). -/
theorem windowSlot_stopped {s : State} {p : Port}
    (h : s.outcome p = .absent ∨ (∃ f, s.outcome p = .valid f ∧ f.run = false)
      ∨ (∃ audio, s.outcome p = .check audio) ∧ ((s.ports.get p).rx = .locked → ∀ r ∈ (s.ports.get p).lastValid, r.run = false)) :
    (s.windowSlot p).stopped = true := by
  rw [windowSlot_eq]
  split
  · unfold slotFor
    split
    · next hlocked =>
      obtain ho | ⟨f, ho, hrun⟩ | ⟨⟨audio, ho⟩, hlast⟩ := h
      · rw [ho]; rfl
      · rw [ho]
        dsimp only
        split
        · simp [Slot.stopped, hrun]
        · rfl
      · have hrx : (s.portAfterWindow p).rx
            = (rxAfter s.live (s.ports.get p).rx (s.ports.get p).sync (absentRunAfter (s.outcome p) (s.ports.get p).absentRun)
                (s.outcome p)).1 := rfl
        have hbefore : (s.ports.get p).rx = .locked := by
          rw [ho] at hrx
          exact (rxAfter_check_locked_iff _ _ _ _ _).mp (hrx.symm.trans hlocked)
        have hheld : (s.portAfterWindow p).lastValid = (s.ports.get p).lastValid := by
          show lastValidAfter s.clock.window (s.ports.get p).rx (s.portAfterWindow p).rx (s.outcome p) _ = _
          unfold lastValidAfter
          rw [if_pos hlocked, ho]
          exact if_pos hbefore
        rw [ho, hheld]
        unfold predictedMeta
        cases hr : (s.ports.get p).lastValid with
        | none => rfl
        | some r => simp [Slot.stopped, hlast hbefore r hr]
    · rfl
  · rfl

/-- A window with no lead changes only the leads held (R40). -/
theorem gatherLead_none (p : Port) (s : State) :
    ∃ leads, gatherLead p none s = { s with align := { s.align with leads := leads } } := by
  unfold gatherLead
  split
  · exact ⟨_, rfl⟩
  · exact ⟨_, rfl⟩

theorem recordClamp_align (b : Bool) (k : Int) (s : State) : (recordClamp b k s).align = s.align := by
  unfold recordClamp
  split <;> rfl

/-- A record that fits is placed (R145). -/
theorem mem_offer {q : EventQueue} {r : EventRecord} (h : fillOf q.records + r.size ≤ Config.eventBytes) :
    r ∈ (q.offer r).records := by
  unfold EventQueue.offer
  rw [if_pos h]
  simp

/-- All that the recentre on air does to the alignment record (R44, R50). -/
theorem recentreOnAir_align (p : Port) (s : State) :
    (recentreOnAir p s).align = { s.align with
      delays := (s.align.delays.set p s.recentreNow.dOn).set p.other s.recentreNow.dOff, clamp := s.recentreNow.bound } := by
  unfold recentreOnAir
  dsimp only
  split
  · rfl
  · rw [recordClamp_align]; rfl

/-- RECENTRE is recorded with the old and the new delay of the port on air (R50). -/
theorem recentreOnAir_records {p : Port} {s : State} (h : fillOf s.events.records + 12 ≤ 1024) :
    ⟨.recentre p (s.align.delays.get p) s.recentreNow.dOn, s.stamp⟩ ∈ (recentreOnAir p s).events.records := by
  have hplaced : ∀ d : DelayPair, ⟨.recentre p (s.align.delays.get p) d.dOn, s.stamp⟩
      ∈ (offerEvent (.recentre p (s.align.delays.get p) d.dOn) (setDelays p d s)).events.records := fun d => mem_offer h
  unfold recentreOnAir
  dsimp only
  split
  · exact hplaced _
  · exact (Offered.records_prefix (frame_recordClamp _ _ _).offered).subset (hplaced _)

theorem onPort_of_on {s : State} {x : Port} (h : s.ctrl.mode = .on x) : s.onPort = x := by
  unfold State.onPort
  rw [h]

/-- The 64th stopped window in a row, and every one after it (R49). -/
theorem stoppedRunAfter_of_stopped {slot : Slot} {n : Nat} (hslot : slot.stopped = true) (hrun : 63 ≤ n) :
    stoppedRunAfter slot n = 64 := by
  unfold stoppedRunAfter satAdd
  rw [if_pos hslot]
  simp only [Config.stoppedWindows]
  omega

/-- The window that brings the stopped run of the port on air to its end, with no lead, recentres it (R49, R50). -/
theorem takeAlignmentReport_of_stopped {p : Port} {r : WindowReport} {slot : Slot} {s : State} (hmode : s.ctrl.mode = .on p)
    (htransition : s.align.transition = false) (hrun : 63 ≤ s.align.stopped.get p) (hslot : slot.stopped = true)
    (hlead : r.lead = none) (hdelay : s.align.delays.get p ≠ s.recentreNow.dOn) :
    (∃ leads, (takeAlignmentReport p r slot s).align = { s.align with
        stopped := s.align.stopped.set p 64, leads := leads
        delays := (s.align.delays.set p s.recentreNow.dOn).set p.other s.recentreNow.dOff, clamp := s.recentreNow.bound })
      ∧ (fillOf s.events.records + 12 ≤ 1024 →
        ⟨.recentre p (s.align.delays.get p) s.recentreNow.dOn, s.stamp⟩ ∈ (takeAlignmentReport p r slot s).events.records) := by
  obtain ⟨leads, hleads⟩ := gatherLead_none p (updateStopped p slot s)
  have hreport : takeAlignmentReport p r slot s
      = recentreOnAir p { s with align := { s.align with stopped := s.align.stopped.set p 64, leads := leads } } := by
    unfold takeAlignmentReport
    rw [hlead, hleads]
    unfold updateStopped
    rw [stoppedRunAfter_of_stopped hslot hrun]
    refine if_pos (decide_eq_true ⟨hmode, htransition, ?_, hdelay⟩)
    exact PerPort.get_set_self _ _ _
  rw [hreport]
  exact ⟨⟨leads, recentreOnAir_align p _⟩, fun hroom => recentreOnAir_records (p := p) hroom⟩

/-- The delays of R44 and their clamp flag, each with its clamp written out, for an accepted skew taken from port x's side
(R43, R46). -/
theorem recentrePair_eq (g : Nat) (x : Port) (accepted : Option Int) :
    let kOn := (accepted.map (skewFrom x)).getD 0
    let limit : Int → Nat := fun d => (max 64 (min 2016 d)).toNat
    let dOn := if accepted = none then g else limit (g + max 0 kOn)
    let dOff := if accepted = none then g else limit (dOn - kOn)
    recentrePair g (accepted.map (skewFrom x))
      = ⟨dOn, dOff, decide (accepted ≠ none ∧ ((dOn : Int) ≠ g + max 0 kOn ∨ (dOff : Int) ≠ dOn - kOn))⟩ := by
  cases accepted with
  | none => simp [recentrePair]
  | some k => simp [recentrePair, clampDelay, Config.delayMin, Config.delayMax]

theorem skewFrom_eq (p : Port) (k : Int) : skewFrom p k = if p = .a then k else -k := by cases p <;> rfl

/-- The window close of a port on air whose stopped run ends there: its recentre, from the state that the health monitor leaves. -/
theorem closeWindow_of_stopped {s : State} {x : Port} (hmode : s.ctrl.mode = .on x) (htransition : s.align.transition = false)
    (hrun : 63 ≤ s.align.stopped.get x) (hslot : (s.windowSlot x).stopped = true) (hlead : (s.windowReport x).lead = none)
    (hfill : fillOf s.events.records + 128 ≤ 1024) (hdelay : s.align.delays.get x ≠ s.recentreNow.dOn) :
    (closeWindow x s).ctrl.mode = .on x
      ∧ (∃ leads, (closeWindow x s).align = { s.align with
          stopped := s.align.stopped.set x 64, leads := leads
          delays := (s.align.delays.set x s.recentreNow.dOn).set x.other s.recentreNow.dOff, clamp := s.recentreNow.bound })
      ∧ ∃ r ∈ (closeWindow x s).events.records, r.body = .recentre x (s.align.delays.get x) s.recentreNow.dOn := by
  obtain ⟨⟨halign, htables, hmode', -⟩, hroom⟩ := examined_stands (s := s) (p := x) fun h => by rw [hmode] at h; cases h
  have hroom' := fillOf_transitioned s x
  have hnow : (s.examined x).recentreNow = s.recentreNow := by
    unfold State.recentreNow State.onPort State.preferred State.live
    rw [halign, htables, hmode']
  obtain ⟨⟨leads, hafter⟩, hrecorded⟩ := takeAlignmentReport_of_stopped (r := s.windowReport x) (slot := s.windowSlot x)
    (hmode'.trans hmode) (by rw [halign, htransition]) (by rw [halign]; exact hrun) hslot hlead (by rw [hnow, halign]; exact hdelay)
  rw [hnow, halign] at hafter hrecorded
  obtain ⟨hclose, hctrl, hrecords⟩ := closeWindow_reported x s
  refine ⟨?_, ⟨leads, hclose.trans hafter⟩, _, hrecords.subset (hrecorded (by omega)), rfl⟩
  rw [hctrl, reported_eq, takeAlignmentReport_ctrl, hmode', hmode]

/-- In ON_X, RECENTRE is the window close of X that moves X's delay (log 3). -/
theorem exec_recentre_of_moved {s : State} {x : Port} (hdue : s.WindowDue x) (hmode : s.ctrl.mode = .on x)
    (hmoved : s.align.delays.get x ≠ (closeWindow x s).align.delays.get x) : exec .recentre s = exec (.windowClose x) s := by
  obtain ⟨hrun, hbegun, hmade, hclosed, -⟩ := id hdue
  have hexec : exec .recentre s = .next (recentreAtWindow s).settleLines := whileRunning_of_running hrun
  have hcloses : recentreAtWindow s = runEngine (closeWindow x s) := by
    unfold recentreAtWindow closeIf
    simp only [hmode, atWindow_of_open hbegun hclosed hmade]
    refine if_pos ?_
    simp [recentresOnAir, hmode, hmoved]
  rw [hexec, hcloses, exec_windowClose hdue]

/-- Settles O35: the window counts as the 64th stopped one, and the recentre it brings is R44's, whose record finds room. -/
theorem stoppedPortIsRecentred : Obligations.StoppedPortIsRecentred := by
  unfold Obligations.StoppedPortIsRecentred
  intro s x hdue hmode htransition hrun hwindow hfill g kOn limit dOn dOff hdelay
  have hcauses : s.outcome x = .absent ∨ (∃ f, s.outcome x = .valid f ∧ f.run = false ∧ f.lane = [])
      ∨ (∃ audio, s.outcome x = .check audio) ∧ ((s.ports.get x).rx = .locked → ∀ r ∈ (s.ports.get x).lastValid, r.run = false) := by
    rw [← raises_check_iff]
    exact hwindow
  have hslot : (s.windowSlot x).stopped = true :=
    windowSlot_stopped (hcauses.imp_right (.imp_left fun ⟨f, ho, hrun, _⟩ => ⟨f, ho, hrun⟩))
  have hlead : (s.windowReport x).lead = none := by
    rw [windowReport_lead]
    unfold State.taken
    obtain ho | ⟨f, ho, hrun, -⟩ | ⟨⟨audio, ho⟩, -⟩ := hcauses
    · rw [ho]; rfl
    · simp [ho, hrun]
    · rw [ho]; rfl
  have hquiet : s.LaneQuiet x := fun f hf => by
    obtain ho | ⟨f', ho, -, hlane⟩ | ⟨⟨audio, ho⟩, -⟩ := hcauses
    · rw [ho] at hf; cases hf
    · rw [ho] at hf; cases hf; exact hlane
    · rw [ho] at hf; cases hf
  have hkOn : (s.align.accepted.map (skewFrom x)).getD 0 = kOn := by
    simp only [kOn]
    cases s.align.accepted with
    | none => rfl
    | some k => exact skewFrom_eq x k
  have hnow : s.recentreNow
      = ⟨dOn, dOff, decide (s.align.accepted ≠ none ∧ ((dOn : Int) ≠ g + max 0 kOn ∨ (dOff : Int) ≠ dOn - kOn))⟩ := by
    unfold State.recentreNow
    rw [onPort_of_on hmode, recentrePair_eq]
    simp only [hkOn]
    rfl
  obtain ⟨hon, ⟨leads, halign⟩, hrecord⟩ := closeWindow_of_stopped hmode htransition hrun hslot hlead hfill
    (by rw [hnow]; exact hdelay)
  rw [hnow] at halign hrecord
  have hexec := exec_windowClose hdue
  rw [runEngine_closeWindow_quiet hdue hquiet] at hexec
  have hmoved := exec_recentre_of_moved hdue hmode (by rw [halign]; simpa using hdelay)
  refine ⟨hmoved, _, hmoved.trans hexec, hon, ?_, ?_, ?_, ?_, ?_, hrecord⟩
  all_goals
    rw [settleLines_align, halign]
  · simp
  · simp
  · simp

end Sys2Proof.Machine

/-! ### The acceptance of a skew (R41, R42, R44 to R47) -/

namespace Sys2Proof.Machine

/-- The delays that the acceptance of skew k leaves, with the clamp flag: those of a recentre in IDLE, of an off-air update in an ON
state, and in a transition those that stand (R42, R44 to R46). -/
def State.acceptance (s : State) (k : Int) : DelayPair :=
  match s.ctrl.mode with
  | .idle => recentrePair s.live.guardDelay (some (skewFrom s.onPort k))
  | .on _ => offAirPair (s.align.delays.get s.onPort) (skewFrom s.onPort k)
  | .opening _ => ⟨s.align.delays.get s.onPort, s.align.delays.get s.onPort.other, s.align.clamp⟩
  | .fade _ => ⟨s.align.delays.get s.onPort, s.align.delays.get s.onPort.other, s.align.clamp⟩

/-- The record of a clamp that bound (R46, R144). -/
def clampRecord (bound : Bool) (k : Int) : List EventBody :=
  if bound then [.outOfRange (max (-(2 ^ 31)) (min (2 ^ 31 - 1) k))] else []

theorem recordClamp_eq (bound : Bool) (k : Int) (s : State) :
    recordClamp bound k s = { s with events := s.recording (clampRecord bound k) } := by
  cases bound <;> rfl

/-- All that the acceptance of a skew does (R42, R47). -/
theorem acceptSkew_eq (k : Int) (s : State) :
    acceptSkew k s = { s with
      align := { s.align with
        accepted := some k
        delays := (s.align.delays.set s.onPort (s.acceptance k).dOn).set s.onPort.other (s.acceptance k).dOff
        clamp := (s.acceptance k).bound
        deferred := s.ctrl.mode.isTransition || s.align.deferred }
      events := s.recording (.skew k (s.acceptance k).dOff
        :: if s.ctrl.mode.isTransition then [] else clampRecord (s.acceptance k).bound k) } := by
  have hon : State.onPort { s with align := { s.align with accepted := some k } } = s.onPort := rfl
  have hstands : (s.align.delays.set s.onPort (s.align.delays.get s.onPort)).set s.onPort.other
      (s.align.delays.get s.onPort.other) = s.align.delays := by
    rw [PerPort.set_get, PerPort.set_get]
  unfold acceptSkew State.acceptance
  dsimp only
  rw [hon]
  split
  · next hmode => simp only [hmode, recordClamp_eq]; rfl
  · next hmode => simp only [hmode, recordClamp_eq]; rfl
  · next hmode => simp only [hmode, hstands]; rfl
  · next hmode => simp only [hmode, hstands]; rfl

/-- The skew of a window from both its leads, that of port p and that of the other port (R40). -/
def skewOf (p : Port) (mine its : Int) : Int :=
  signed40 (BitVec.ofInt 40 (if p = .a then mine - its else its - mine))

/-- The second lead of a pair decides the window's skew and clears both leads (R40). -/
theorem gatherLead_second {p : Port} {mine its : Int} {s : State} (h : s.align.leads.get p.other = .reported (some its)) :
    gatherLead p (some mine) s
      = skewStep (skewOf p mine its) { s with align := { s.align with leads := ⟨.unreported, .unreported⟩ } } := by
  have hside : (if p = .a then mine - its else its - mine) = skewFrom p (mine - its) := by
    rw [skewFrom_eq, neg_sub]
  unfold gatherLead skewOf
  rw [h, hside]
  rfl

/-- A skew equal to the candidate, confirmed often enough and not accepted yet, is accepted (R41, R42). -/
theorem skewStep_of_confirmed {k : Int} {s : State} (hcandidate : s.align.candidate = some k) (hnew : s.align.accepted ≠ some k)
    (hconfirmed : s.tables.live.kSkew ≤ min 255 (s.align.confirm + 1)) :
    skewStep k s = acceptSkew k { s with align := { s.align with confirm := min 255 (s.align.confirm + 1) } } := by
  have hconfirm : confirmSkew k s.align = { s.align with confirm := min 255 (s.align.confirm + 1) } := if_pos hcandidate
  unfold skewStep
  rw [hconfirm]
  refine if_pos (decide_eq_true ⟨hconfirmed, ?_, ?_⟩)
  · show s.align.candidate.isSome = true
    rw [hcandidate]; rfl
  · show s.align.accepted ≠ s.align.candidate
    rw [hcandidate]; exact hnew

/-- The state in which a window's confirmed skew is accepted: the stopped run counted, the leads cleared, the count raised
(R40, R41, R49). -/
def State.confirming (s : State) (p : Port) (slot : Slot) : State :=
  { s with align := { s.align with
      stopped := s.align.stopped.set p (stoppedRunAfter slot (s.align.stopped.get p)), leads := ⟨.unreported, .unreported⟩
      confirm := min 255 (s.align.confirm + 1) } }

/-- A window whose skew is accepted is that acceptance, and then the recentre test (R42, R50). -/
theorem takeAlignmentReport_of_confirmed {p : Port} {r : WindowReport} {slot : Slot} {mine its : Int} {s : State}
    (hlead : r.lead = some mine) (hother : s.align.leads.get p.other = .reported (some its))
    (hcandidate : s.align.candidate = some (skewOf p mine its)) (hnew : s.align.accepted ≠ some (skewOf p mine its))
    (hconfirmed : s.tables.live.kSkew ≤ min 255 (s.align.confirm + 1)) :
    takeAlignmentReport p r slot s =
      let t := acceptSkew (skewOf p mine its) (s.confirming p slot)
      if recentreDue p t then recentreOnAir p t else t := by
  have hgather : gatherLead p r.lead (updateStopped p slot s) = acceptSkew (skewOf p mine its) (s.confirming p slot) := by
    rw [hlead]
    exact (gatherLead_second (s := updateStopped p slot s) hother).trans (skewStep_of_confirmed hcandidate hnew hconfirmed)
  unfold takeAlignmentReport
  rw [hgather]

/-! #### The window that accepts -/

/-- What an acceptance gives depends on the alignment record, the tables and the mode alone. -/
theorem AlignmentStands.acceptance {s t : State} (h : AlignmentStands s t) (k : Int) (p : Port) (slot : Slot) :
    (t.confirming p slot).acceptance k = (s.confirming p slot).acceptance k := by
  unfold State.acceptance State.onPort State.confirming State.preferred State.live
  rw [h.align, h.tables, h.mode]

theorem AlignmentStands.acceptSkew {s t : State} (h : AlignmentStands s t) (k : Int) (p : Port) (slot : Slot) :
    (Machine.acceptSkew k (t.confirming p slot)).align = (Machine.acceptSkew k (s.confirming p slot)).align := by
  rw [acceptSkew_eq, acceptSkew_eq, h.acceptance]
  unfold State.onPort State.confirming State.preferred State.live
  rw [h.align, h.tables, h.mode]

/-- The first of some records is placed before the others. -/
theorem records_prefix_recording (s : State) (b : EventBody) (bodies : List EventBody) :
    (s.events.offer ⟨b, s.stamp⟩).records <+: (s.recording (b :: bodies)).records :=
  Offered.records_prefix (s := { s with events := s.events.offer ⟨b, s.stamp⟩ }) (t := { s with events := s.recording (b :: bodies) })
    ⟨bodies.map (⟨·, s.stamp⟩), List.foldl_map.symm⟩

/-- SKEW is recorded with the delay of the off port (R47). -/
theorem acceptSkew_records {k : Int} {s : State} (h : fillOf s.events.records + 16 ≤ 1024) :
    ⟨.skew k (s.acceptance k).dOff, s.stamp⟩ ∈ (acceptSkew k s).events.records := by
  rw [acceptSkew_eq]
  exact (records_prefix_recording s _ _).subset (mem_offer h)

/-- A window of a LOCKED port that takes a valid DATA span with RUN set, with its slot in the ring, and that confirms a skew: the
acceptance stands, for the window ends the stopped run (R39 to R42, R47, R49). -/
theorem closeWindow_of_confirmed {s : State} {p : Port} {f : ForwardSpan} {its : Int} (hlocked : (s.ports.get p).rx = .locked)
    (ho : s.outcome p = .valid f) (hkind : f.kind = .data) (hrun : f.run = true)
    (hring : s.clock.window.toNat % 64 < (s.ports.get p).ring.length)
    (hsteady : s.ctrl.mode = .opening p →
      (healthAfter s.live (s.windowReport p) (s.health.get p) (s.health.get p.other)).verdict = .failed
      → (s.health.get p).verdict = .failed)
    (hother : s.align.leads.get p.other = .reported (some its)) :
    let k := skewOf p (signed40 (f.position - BitVec.ofNat 40 (32 * s.clock.window.toNat))) its
    s.align.candidate = some k → s.align.accepted ≠ some k → s.tables.live.kSkew ≤ min 255 (s.align.confirm + 1) →
    (closeWindow p s).ctrl.mode = s.ctrl.mode
      ∧ (closeWindow p s).align = (acceptSkew k (s.confirming p (s.windowSlot p))).align
      ∧ (fillOf s.events.records + 64 ≤ 1024 →
        ⟨.skew k ((s.confirming p (s.windowSlot p)).acceptance k).dOff, s.stamp⟩ ∈ (closeWindow p s).events.records) := by
  intro k hcandidate hnew hconfirmed
  obtain ⟨hstands, hroom⟩ := examined_stands hsteady
  have hrx := portAfterWindow_locked hlocked ho (.inl hkind)
  have hevents : (s.transitioned p).events = s.events := by
    rw [transitioned_eq, hrx, hlocked]
    rfl
  have hslot : (s.windowSlot p).stopped = false := by
    rw [windowSlot_eq, if_pos hring, hrx, ho]
    simp [slotFor, hkind, hrun, Slot.stopped]
  have hreport := takeAlignmentReport_of_confirmed (slot := s.windowSlot p)
    (windowReport_lead_of_running hlocked ho hkind hrun) (by rw [hstands.align]; exact hother)
    (by rw [hstands.align]; exact hcandidate) (by rw [hstands.align]; exact hnew)
    (by rw [hstands.align, hstands.tables]; exact hconfirmed)
  have hnotDue : recentreDue p (acceptSkew k ((s.examined p).confirming p (s.windowSlot p))) = false := by
    have hstopped : (acceptSkew k ((s.examined p).confirming p (s.windowSlot p))).align.stopped.get p = 0 := by
      rw [acceptSkew_eq]
      simp [State.confirming, stoppedRunAfter, hslot]
    simp [recentreDue, hstopped, Config.stoppedWindows]
  dsimp only at hreport
  rw [if_neg (by rw [hnotDue]; decide)] at hreport
  obtain ⟨hclose, hctrl, hrecords⟩ := closeWindow_reported p s
  rw [reported_eq, hreport] at hclose hrecords
  refine ⟨?_, hclose.trans (hstands.acceptSkew k p _), fun hfill => hrecords.subset ?_⟩
  · rw [hctrl, reported_eq, takeAlignmentReport_ctrl, hstands.mode]
  · have hplaced := acceptSkew_records (k := k) (s := (s.examined p).confirming p (s.windowSlot p)) (by
      show fillOf (s.examined p).events.records + 16 ≤ 1024
      rw [hevents] at hroom
      omega)
    have hstamp : ((s.examined p).confirming p (s.windowSlot p)).stamp = s.stamp := by
      show BitVec.ofNat 32 (s.examined p).clock.window.toNat = _
      rw [hstands.clock]
      rfl
    rwa [hstands.acceptance, hstamp] at hplaced

end Sys2Proof.Machine

/-! ### A span with its check word is valid (R3, R156) -/

namespace Sys2Proof.Machine

theorem xor_lt_word {c d : Nat} (hc : c < 65536) (hd : d < 65536) : Nat.xor c d < 65536 :=
  Nat.xor_lt_two_pow (n := 16) hc hd

theorem crcBit_lt {c : Nat} (h : c < 65536) : crcBit c < 65536 := by
  unfold crcBit
  cases hc : Nat.ble 32768 c with
  | true =>
    rw [cond_true]
    exact xor_lt_word (by omega) (by omega)
  | false =>
    have hlt : c < 32768 := Nat.lt_of_not_le fun hle => Bool.false_ne_true (hc.symm.trans (Nat.ble_eq_true_of_le hle))
    rw [cond_false]
    omega

/-- The register of the CRC keeps to 16 bits. -/
theorem crcFrom_lt (bytes : List Byte) {c : Nat} (h : c < 65536) : crcFrom c bytes < 65536 := by
  induction bytes generalizing c with
  | nil => exact h
  | cons b rest ih =>
    have hbyte : crcByte c b < 65536 :=
      crcBit_lt (crcBit_lt (crcBit_lt (crcBit_lt (crcBit_lt (crcBit_lt (crcBit_lt (crcBit_lt
        (xor_lt_word h (by have := b.isLt; omega)))))))))
    unfold crcFrom
    cases Nat.ble 65536 c with
    | true => exact Nat.zero_lt_succ _
    | false => exact ih hbyte

theorem natOfBytes_bytesOfNat_two {n : Nat} (h : n < 65536) : natOfBytes (bytesOfNat 2 n) = n := by
  show natOfBytes [BitVec.ofNat 8 (n / 256), BitVec.ofNat 8 n] = n
  rw [natOfBytes_pair, BitVec.toNat_ofNat, BitVec.toNat_ofNat]
  omega

/-- 6164 bytes that name a kind and a lane count of R157 are, with their check word behind them, a valid span. -/
theorem judgeSpan_withCheckWord {bytes : List Byte} {kind : SpanKind} (hlength : bytes.length = 6164)
    (hkind : spanKindOfCode ((withCheckWord bytes).getD 0 0) = some kind) (hlane : ((withCheckWord bytes).getD 11 0).toNat ≤ 8) :
    judgeSpan (withCheckWord bytes) = .valid (decodeSpan kind (withCheckWord bytes)) := by
  refine (judgeSpan_valid_iff _ _).mpr ⟨?_, hlane, kind, hkind, rfl⟩
  have hword : natOfBytes ((withCheckWord bytes).drop 6164) = crc16 ((withCheckWord bytes).take 6164) := by
    rw [withCheckWord, ← hlength, List.drop_left, List.take_left, natOfBytes_bytesOfNat_two]
    exact crcFrom_lt bytes (by decide)
  have hwhole : (withCheckWord bytes).length = 6166 := by
    rw [withCheckWord, List.length_append, length_bytesOfNat, hlength]
  simp [checkWordMatches, hword, hwhole, Config.spanBytes]

end Sys2Proof.Machine

/-! ### A port whose ring ends before the slot of the window (R42, R50) -/

namespace Sys2Proof.Machine

/-- The bytes are judged a valid DATA span f with number 0, RUN set, show position 0 and no lane byte. -/
structure RunsFromZero (bytes : List Byte) (f : ForwardSpan) : Prop where
  judged : judgeSpan bytes = .valid f
  kind : f.kind = .data
  number : f.number = 0
  run : f.run = true
  position : f.position = 0
  lane : f.lane = []

theorem runsFromZero_exists : ∃ bytes f, RunsFromZero bytes f :=
  ⟨withCheckWord ([0x5A, 0x80] ++ zeroBytes 6162), _,
    judgeSpan_withCheckWord (kind := .data) (by rw [List.length_append, zeroBytes, List.length_replicate]; rfl) rfl (by decide),
    rfl, rfl, rfl, rfl, rfl⟩

/-- Port A on air and LOCKED, its window 0 due with a span in the store, and one report short of the skew 0 that port B's lead confirms.
Its 63 last windows were stopped, its delays are not those of a recentre, and its ring has no slot: all else is as after a reset. -/
def ringlessState (bytes : List Byte) : State :=
  { State.reset with
    clock := ⟨0, true, 32, ⟨false, false⟩, false⟩
    ports := ⟨{ resetPort with rx := .locked, expected := 4095, store := [bytes], ring := [] }, resetPort⟩
    health := ⟨{ resetHealth with lockView := true }, resetHealth⟩
    ctrl := { resetController with mode := .on .a }
    align := { resetAlignment 256 with
      candidate := some 0, confirm := 7, delays := ⟨300, 300⟩, stopped := ⟨63, 0⟩, leads := ⟨.unreported, .reported (some 0)⟩ } }

theorem ringlessState_outcome {bytes : List Byte} {f : ForwardSpan} (h : RunsFromZero bytes f) :
    (ringlessState bytes).outcome .a = .valid f :=
  h.judged

/-- No fault is raised: the span has the number expected, and there is nothing earlier to compare it with. -/
theorem ringlessState_weightSum {bytes : List Byte} {f : ForwardSpan} (h : RunsFromZero bytes f) :
    (ringlessState bytes).weightSum .a = 0 := by
  have hjudged : (ringlessState bytes).judged .a = (ringlessState bytes).health.a := rfl
  have hexpected : ((ringlessState bytes).ports.get .a).expected = 4095#12 := rfl
  have hstore : ((ringlessState bytes).ports.get .a).store.isEmpty = false := rfl
  have hdata : (ringlessState bytes).health.a.lastData = none := rfl
  have hrunning : (ringlessState bytes).health.a.lastRunning = none := rfl
  have hpilot : (ringlessState bytes).tables.live.pilot .a = none := rfl
  simp [State.weightSum, faultOrder, State.raises, State.taken, ringlessState_outcome h, hjudged, hexpected, hstore, hdata, hrunning,
    hpilot, h.kind, h.number]

theorem ringlessState_leadTime {bytes : List Byte} {f : ForwardSpan} (h : RunsFromZero bytes f) :
    signed40 (f.position - BitVec.ofNat 40 (32 * (ringlessState bytes).clock.window.toNat)) = 0 := by
  rw [h.position]
  exact (by decide : signed40 (0 - BitVec.ofNat 40 (32 * (0 : WindowIndex).toNat)) = 0)

theorem ringlessState_lead {bytes : List Byte} {f : ForwardSpan} (h : RunsFromZero bytes f) :
    ((ringlessState bytes).windowReport .a).lead = some 0 := by
  rw [windowReport_lead_of_running rfl (ringlessState_outcome h) h.kind h.run, ringlessState_leadTime h]

/-- A stopped window of the port on air that confirms a skew accepts it, and recentres the delays at once (R42, R50). -/
theorem takeAlignmentReport_of_confirmed_stopped {p : Port} {r : WindowReport} {slot : Slot} {mine its : Int} {s : State}
    (hlead : r.lead = some mine) (hother : s.align.leads.get p.other = .reported (some its))
    (hcandidate : s.align.candidate = some (skewOf p mine its)) (hnew : s.align.accepted ≠ some (skewOf p mine its))
    (hconfirmed : s.tables.live.kSkew ≤ min 255 (s.align.confirm + 1)) (hmode : s.ctrl.mode = .on p)
    (htransition : s.align.transition = false) (hrun : 63 ≤ s.align.stopped.get p) (hslot : slot.stopped = true)
    (hdelay : s.align.delays.get p
      ≠ (recentrePair s.tables.live.guardDelay (some (skewFrom p (skewOf p mine its)))).dOn) :
    (takeAlignmentReport p r slot s).align.delays.get p
      = (recentrePair s.tables.live.guardDelay (some (skewFrom p (skewOf p mine its)))).dOn := by
  rw [takeAlignmentReport_of_confirmed hlead hother hcandidate hnew hconfirmed]
  generalize ht : acceptSkew (skewOf p mine its) (s.confirming p slot) = t
  have hon : (s.confirming p slot).onPort = p := onPort_of_on hmode
  have hkeeps : ((s.confirming p slot).acceptance (skewOf p mine its)).dOn = s.align.delays.get p := by
    unfold State.acceptance
    rw [show (s.confirming p slot).ctrl.mode = .on p from hmode, hon]
    rfl
  rw [acceptSkew_eq, hon, hkeeps] at ht
  have hmode' : t.ctrl.mode = .on p := by rw [← ht]; exact hmode
  have haccepted : t.align.accepted = some (skewOf p mine its) := by rw [← ht]
  have htables : t.tables = s.tables := by rw [← ht]; rfl
  have hstays : t.align.delays.get p = s.align.delays.get p := by rw [← ht]; simp
  have hstopped : t.align.stopped.get p = 64 := by
    rw [← ht, ← stoppedRunAfter_of_stopped hslot hrun]
    exact PerPort.get_set_self _ _ _
  have hnow : t.recentreNow = recentrePair s.tables.live.guardDelay (some (skewFrom p (skewOf p mine its))) := by
    unfold State.recentreNow State.live
    rw [onPort_of_on hmode', haccepted, htables]
    rfl
  have hdue : recentreDue p t = true := by
    refine decide_eq_true ⟨hmode', ?_, hstopped, ?_⟩
    · rw [← ht]; exact htransition
    · rw [hnow, hstays]; exact hdelay
  dsimp only
  rw [if_pos hdue, recentreOnAir_align, hnow]
  simp

/-- The window of the missing slot accepts the skew, and then counts as the 64th stopped one, and so the delay of the port on air does
not stand: it is recentred. -/
theorem ringlessState_recentred {bytes : List Byte} {f : ForwardSpan} (h : RunsFromZero bytes f) :
    (closeWindow .a (ringlessState bytes)).align.delays.get .a = 256 := by
  obtain ⟨⟨halign, htables, hmode, -⟩, -⟩ := examined_stands (s := ringlessState bytes) (p := .a) fun hopening => by cases hopening
  have hslot : (ringlessState bytes).windowSlot .a = .empty := by rw [windowSlot_eq]; rfl
  have hmoves : 300 ≠ (recentrePair factoryTables.guardDelay (some (skewFrom .a (skewOf .a 0 0)))).dOn := by decide
  have hafter := takeAlignmentReport_of_confirmed_stopped (p := .a) (slot := .empty) (mine := 0) (its := 0)
    (s := (ringlessState bytes).examined .a) (ringlessState_lead h) (by rw [halign]; rfl) (by rw [halign]; rfl)
    (by rw [halign]; exact (by decide : (none : Option Int) ≠ some (skewOf .a 0 0)))
    (by rw [halign, htables]; exact (by decide : factoryTables.kSkew ≤ min 255 (7 + 1))) hmode (by rw [halign]; rfl)
    (by rw [halign]; exact (by decide : 63 ≤ 63)) rfl (by rw [halign, htables]; exact hmoves)
  rw [(closeWindow_reported .a (ringlessState bytes)).1, reported_eq, hslot, hafter, htables]
  rfl

/-- Refutes O34: nothing in its hypotheses gives the port's ring the 64 slots of R13. In `ringlessState` the slot of the window does not
exist and reads as EMPTY, so that the window counts toward the stopped run although its span has RUN set, and the recentre of R50 follows
the acceptance: the delay of the port on air goes from 300 to 256, where the statement has it stand. With the slot in the ring,
`closeWindow_of_confirmed` gives the acceptance that the statement describes. -/
theorem not_confirmedSkewIsAccepted : ¬ Obligations.ConfirmedSkewIsAccepted := by
  unfold Obligations.ConfirmedSkewIsAccepted
  rintro ⟨haccepts, -⟩
  obtain ⟨bytes, f, h⟩ := runsFromZero_exists
  have hdue : (ringlessState bytes).WindowDue .a := ⟨rfl, rfl, rfl, rfl, rfl, rfl⟩
  have hon : (ringlessState bytes).ctrl.mode = .on .a := rfl
  obtain ⟨hclose, t, hexec, -, -, -, -, -, hdelay, -⟩ := haccepts (ringlessState bytes) .a f 0 hdue rfl (ringlessState_outcome h)
    h.kind h.run h.lane (ringlessState_weightSum h) (fun hready => by cases hready) rfl
    (by decide : fillOf State.reset.events.records + 64 ≤ 1024)
    (by rw [ringlessState_leadTime h]; exact (by decide : some 0 = some (skewOf .a 0 0)))
    (fun haccepted => by cases haccepted) (by decide : factoryTables.kSkew ≤ min 255 (7 + 1))
  have hquiet : (ringlessState bytes).LaneQuiet .a := fun f' hf' => by
    rw [ringlessState_outcome h] at hf'
    cases hf'
    exact h.lane
  rw [hclose, exec_windowClose hdue, runEngine_closeWindow_quiet hdue hquiet] at hexec
  rw [← Host.Outcome.next.inj hexec] at hdelay
  simp only [hon, settleLines_align, ringlessState_recentred h, reduceCtorEq, if_false] at hdelay
  exact absurd hdelay (by decide : 256 ≠ 300)

end Sys2Proof.Machine

/-! ### The switch record stays armed (R70) -/

namespace Sys2Proof.Machine

/-- A reset leaves no pending switch record (R81). -/
theorem armed_fresh (q : List Instr) (r : Rate) (x : InputLines) (t : Tables) (l : LockRecord) (c : Option StoredCopy)
    (rs : List EventRecord) (n : Nat) : (State.fresh q r x t l c rs n).SwitchArmed :=
  armed_of_none rfl

/-- The monitor hands a changed verdict to the controller and nothing else to it (R35). -/
theorem armed_handVerdict (p : Port) (h : HealthRecord) (s : State) (ha : s.SwitchArmed) : (handVerdict p h s).SwitchArmed :=
  ite_of (P := State.SwitchArmed) ha (armed_takeVerdictChange p _ _ _ ha)

/-- Outside LOCKED a report reaches the verdict only as a forced failure (R21, R34). -/
theorem takeHealthReport_of_unlocked {p : Port} {r : WindowReport} {s : State} (h : r.rx ≠ .locked) :
    takeHealthReport p r s
      = if (r.changed && (s.health.get p).lockView) = true then handVerdict p (forcedFailure r.rx (s.health.get p)) s else s := by
  unfold takeHealthReport
  split
  · next hlocked => exact absurd hlocked h
  all_goals rfl

/-- A LOCKED window is evaluated, against the values of a lock entry if it is one (R21, R22). -/
theorem takeHealthReport_of_locked {p : Port} {r : WindowReport} {s : State} (h : r.rx = .locked) :
    takeHealthReport p r s
      = evaluateWindow p r (if r.changed = true then s.setHealth p (lockEntry (s.health.get p)) else s) := by
  unfold takeHealthReport
  rw [h]

theorem armed_takeHealthReport (p : Port) (r : WindowReport) (s : State) (h : s.SwitchArmed) :
    (takeHealthReport p r s).SwitchArmed := by
  by_cases hrx : r.rx = .locked
  · rw [takeHealthReport_of_locked hrx]
    exact armed_takeNotice p _ _ (armed_handVerdict p _ _ (ite_of (P := State.SwitchArmed) h h))
  · rw [takeHealthReport_of_unlocked hrx]
    exact ite_of (P := State.SwitchArmed) (armed_handVerdict p _ s h) h

theorem transitioned_ctrl (s : State) (p : Port) : (s.transitioned p).ctrl = s.ctrl := by rw [transitioned_eq]

/-- In a window close the health report alone reaches the controller (R5, R35, R36). -/
theorem closeWindow_ctrl (p : Port) (s : State) : (closeWindow p s).ctrl = (s.examined p).ctrl := by
  rw [(closeWindow_reported p s).2.1, reported_eq, takeAlignmentReport_ctrl]

theorem armed_closeWindow (p : Port) (s : State) (h : s.SwitchArmed) : (closeWindow p s).SwitchArmed :=
  armed_of_ctrl (closeWindow_ctrl p s) (armed_takeHealthReport p _ _ (armed_of_ctrl (transitioned_ctrl s p) h))

theorem armed_samplePanel (a b : Bool) (s : State) (h : s.SwitchArmed) : (samplePanel a b s).SwitchArmed := by
  have hpress : ∀ (c : Bool) (x : Port) (u : State), u.SwitchArmed → (if c = true then press x u else u).SwitchArmed :=
    fun c x u hu => ite_of (P := State.SwitchArmed) (armed_press x u hu) hu
  exact hpress _ _ _ (hpress _ _ _ (armed_of_eq rfl rfl rfl h))

/-- Each operation that the commands are made of keeps the record armed. -/
theorem switchArmed_kept : Kept State.SwitchArmed where
  lines _ _ h := h
  pins _ _ h := h
  startUp _ _ _ _ := armed_fresh _ _ _ _ _ _ _ _
  assertReset s h := by unfold assertReset; cases s.run <;> exact h
  losePower s _ := armed_fresh s.pending s.rate s.pins factoryTables openLock (interruptWrite s.store).copy [] s.free
  completeWrite v s h := by
    unfold completeWrite
    split
    · exact h
    · split <;> exact h
  enterStore _ _ _ h := h
  begin _ h := h
  sendReturn _ _ h := h
  sample s _ h := armed_makeSample s h
  window := armed_closeWindow
  panel := armed_samplePanel
  engine := armed_runEngine
  scheduled := armed_answerScheduled
  now := armed_answerNow
  table s h := armed_of_ctrl (tableSpanStart_ctrl s) h
  record b s h := armed_of_ctrl (recordAdoption_ctrl b s) h
  early _ _ h := h
  markSwitch := armed_controllerMark
  markApply m s h := armed_of_ctrl (tableMark_ctrl m s) h
  offer p m s h := armed_of_ctrl (by rw [(lane_offerMessage p m s).rest]) h
  long p s h := armed_of_ctrl (by rw [(lane_raiseMgmtError p .long s).rest]) h

/-- Settles O57: each operation that a command is made of keeps the record armed (`Kept`), so every step does. -/
theorem everyStepKeepsTheSwitchRecordArmed : Obligations.EveryStepKeepsTheSwitchRecordArmed := by
  unfold Obligations.EveryStepKeepsTheSwitchRecordArmed
  intro s t h hstep
  exact switchArmed_kept.step (fun _ _ hs => hs) s t h hstep

end Sys2Proof.Machine

/-! ### Every command ends with its lines settled (R79, R147, R154) -/

namespace Sys2Proof.Machine

theorem whileRunning_completes (f : State → State) (s : State) : ∃ u, whileRunning f s = complete u := by
  by_cases h : s.run = .running
  · exact ⟨f s, if_pos h⟩
  · exact ⟨s, if_neg h⟩

/-- Every command completes, with its lines settled on the state it leaves. -/
theorem exec_completes (c : Instr) (s : State) : ∃ u, exec c s = complete u := by
  cases c with
  | startUp kind rate => exact ⟨_, rfl⟩
  | resetNAsserted => exact ⟨_, rfl⟩
  | powerLoss => exact ⟨_, rfl⟩
  | spanComplete p bytes => exact whileRunning_completes (fun s => s.setPort p (enterStore bytes (s.ports.get p))) s
  | windowClose p => exact whileRunning_completes (fun s => closeAndServe p (atWindow p s)) s
  | panelSampling a b key => exact whileRunning_completes (fun s => samplePanel a b (setShowlock key (atPanel s))) s
  | lock p tag operands key =>
    exact whileRunning_completes (fun s => submitRequest p (tag :: 0x08 :: operands) (setShowlock key (atRequest s))) s
  | _ => exact whileRunning_completes _ s

/-- The lamps, in the terms of R79. -/
theorem tallyLit_iff (m : Mode) (x : Port) :
    tallyLit m x = true ↔ m = .on x ∨ m = .opening x ∨ m = .fade .a ∨ m = .fade .b := by
  cases m with
  | idle => simp [tallyLit]
  | opening y => simp [tallyLit]
  | on y => simp [tallyLit]
  | fade y => cases y <;> simp [tallyLit]

/-- A record alerts by the mask bit of its code, when its code is below 16 (R144, R147). -/
theorem recordAlerts_iff (mask : Nat) (r : EventRecord) :
    recordAlerts mask r = true ↔ r.body.code < 16 ∧ mask.testBit r.body.code = true := by
  unfold recordAlerts EventBody.maskBit
  by_cases h : r.body.code < 16 <;> simp [h]

/-- Settles O3: the lines of a settled state are those of R79 and R147, and dark and released outside a run. -/
theorem linesFollowTheState : Obligations.LinesFollowTheState := by
  unfold Obligations.LinesFollowTheState
  intro c s t hexec
  obtain ⟨u, hu⟩ := exec_completes c s
  have hlines : t.lines = outputLines t := by
    obtain rfl := (complete_next u t).mp (hu.symm.trans hexec)
    rw [outputLines_settleLines, settleLines_lines]
  rw [hlines]
  unfold outputLines
  split
  · refine ⟨fun x => ?_, ?_⟩
    · rw [← tallyLit_iff]
      cases x <;> rfl
    · show alertCondition t = true ↔ _
      simp only [alertCondition, Bool.or_eq_true, List.any_eq_true, decide_eq_true_eq, recordAlerts_iff]
      exact Or.comm
  · rfl

end Sys2Proof.Machine

/-! ### The panel contacts (R77, R78) -/

namespace Sys2Proof.Machine

/-- A contact is pressed at the sampling that finds it closed with a count of 3 (R77). -/
theorem pressedAt_iff (closed : Bool) (n : Nat) : pressedAt closed n = true ↔ closed = true ∧ n = 3 := by
  simp [pressedAt, Config.pressSamplings]

/-- Both counts after a sampling, and the lines that it reads, before a press is judged (R77). -/
def State.contactsRead (s : State) (forceA forceB : Bool) : State :=
  { s with
    ctrl := { s.ctrl with debounce := ⟨debounceAfter forceA s.ctrl.debounce.a, debounceAfter forceB s.ctrl.debounce.b⟩ }
    clock := { s.clock with panelDone := true }
    pins := { s.pins with forceA := forceA, forceB := forceB } }

/-- A sampling reads both contacts, then judges the press of A, then that of B (R77; log 13). -/
theorem samplePanel_eq (forceA forceB : Bool) (s : State) :
    samplePanel forceA forceB s =
      let t := s.contactsRead forceA forceB
      let u := if pressedAt forceA s.ctrl.debounce.a = true then press .a t else t
      if pressedAt forceB s.ctrl.debounce.b = true then press .b u else u :=
  rfl

/-- With neither contact pressed a sampling only reads them. -/
theorem samplePanel_of_unpressed {forceA forceB : Bool} {s : State} (ha : forceA = true → s.ctrl.debounce.a ≠ 3)
    (hb : forceB = true → s.ctrl.debounce.b ≠ 3) : samplePanel forceA forceB s = s.contactsRead forceA forceB := by
  have hnot : ∀ (closed : Bool) (n : Nat), (closed = true → n ≠ 3) → ¬ pressedAt closed n = true := fun closed n h hpressed =>
    ((pressedAt_iff closed n).mp hpressed).elim h
  simp only [samplePanel_eq, if_neg (hnot _ _ ha), if_neg (hnot _ _ hb)]

/-- The command of a panel sampling whose period is ready for it. -/
theorem exec_panelSampling {s : State} (hrun : s.run = .running) (hbegun : s.clock.begun = true) (hmade : s.clock.made = 32)
    (hpanel : s.clock.panelDone = false) (forceA forceB key : Bool) :
    exec (.panelSampling forceA forceB key) s = .next (samplePanel forceA forceB (setShowlock key s)).settleLines := by
  have hexec := whileRunning_of_running (f := fun s => samplePanel forceA forceB (setShowlock key (atPanel s))) hrun
  rwa [atPanel_of_open hbegun hpanel hmade] at hexec

/-- The command of a press in a period that is ready for its sampling: the sampling, if the count of its contact is 3 (log 3). -/
theorem exec_press {s : State} (hrun : s.run = .running) (hbegun : s.clock.begun = true) (hmade : s.clock.made = 32)
    (hpanel : s.clock.panelDone = false) (x : Port) (held : Bool) :
    exec (.press x held) s = .next (State.settleLines (if s.ctrl.debounce.get x = 3
      then samplePanel (contactLevels x held).1 (contactLevels x held).2 s else s)) := by
  have hpress : pressAtSampling x held s = if s.ctrl.debounce.get x = 3
      then samplePanel (contactLevels x held).1 (contactLevels x held).2 s else s := by
    unfold pressAtSampling
    simp only [atPanel_of_open hbegun hpanel hmade, pressedAt_iff, true_and]
  rw [← hpress]
  exact whileRunning_of_running hrun

/-- The levels that a press of x reads. -/
theorem contactLevels_eq (x : Port) (held : Bool) :
    contactLevels x held = (if x = .a then true else held, if x = .b then true else held) := by
  cases x <;> rfl

/-- Settles O37: a sampling that presses nothing reads the contacts and no more, and a press is its sampling. -/
theorem samplingDebouncesTheContacts : Obligations.SamplingDebouncesTheContacts := by
  unfold Obligations.SamplingDebouncesTheContacts
  refine ⟨fun s forceA forceB key hrun hbegun hmade hpanel ha hb => ?_, fun s x held hrun hbegun hmade hpanel hcount => ?_⟩
  · rw [exec_panelSampling hrun hbegun hmade hpanel, samplePanel_of_unpressed (s := setShowlock key s) ha hb]
    rfl
  · rw [exec_panelSampling hrun hbegun hmade hpanel, exec_press hrun hbegun hmade hpanel, if_pos hcount, contactLevels_eq]
    rfl

/-- With the other contact's count above 0 a press is refused (the first row of R78). -/
theorem press_of_other_closed {x : Port} {s : State} (h : 1 ≤ s.ctrl.debounce.get x.other) :
    press x s = offerEvent (.panel x true) s := by
  unfold press judgePress
  rw [if_pos h]

/-- A press with the other contact open, by the rows of R78 that follow. -/
theorem press_of_other_open {x : Port} {s : State} (h : s.ctrl.debounce.get x.other = 0) :
    press x s =
      if s.ctrl.mode = .on x ∨ s.ready x = false ∨ s.ctrl.scheduled ≠ none ∨ s.ctrl.mode = .idle ∨ s.ctrl.mode = .opening x
          ∨ s.ctrl.mode = .opening x.other ∨ s.ctrl.mode = .fade x.other then offerEvent (.panel x true) s
      else if s.ctrl.mode = .fade x then offerEvent (.panel x false) (scheduleStart .reversal x .panel s)
      else offerEvent (.panel x false) (createPendingSwitch ⟨x, .now, .panel⟩ s) := by
  have hopen : ¬ 1 ≤ s.ctrl.debounce.get x.other := by omega
  unfold press judgePress
  rw [if_neg hopen]
  by_cases hair : s.ctrl.mode = .on x
  · simp [hair]
  cases hready : s.ready x with
  | false => simp [hair]
  | true =>
    cases hscheduled : s.ctrl.scheduled with
    | some st => simp [hair]
    | none =>
      cases hmode : s.ctrl.mode with
      | idle => simp
      | opening y => obtain rfl | rfl := Port.eq_or_other x y <;> simp
      | on y =>
        obtain rfl | rfl := Port.eq_or_other x y
        · exact absurd hmode hair
        · simp
      | fade y => obtain rfl | rfl := Port.eq_or_other x y <;> simp

/-- At a sampling that presses x alone, its press is judged in the state that has read both contacts. -/
theorem samplePanel_of_press {x : Port} {held : Bool} {s : State} (hx : s.ctrl.debounce.get x = 3)
    (hother : held = true → s.ctrl.debounce.get x.other ≠ 3) :
    samplePanel (contactLevels x held).1 (contactLevels x held).2 s
      = press x (s.contactsRead (contactLevels x held).1 (contactLevels x held).2) := by
  have hpressed : pressedAt true (s.ctrl.debounce.get x) = true := (pressedAt_iff _ _).mpr ⟨rfl, hx⟩
  have hunpressed : ¬ pressedAt held (s.ctrl.debounce.get x.other) = true := fun h => ((pressedAt_iff _ _).mp h).elim hother
  rw [samplePanel_eq]
  cases x with
  | a => exact (if_neg hunpressed).trans (if_pos hpressed)
  | b => exact (if_pos hpressed).trans (congrArg (press .b) (if_neg hunpressed))

/-- What a sampling that finds contact x closed a fourth time has read. -/
theorem contactsRead_of_press {x : Port} {held : Bool} {s : State} (hx : s.ctrl.debounce.get x = 3) :
    s.contactsRead (contactLevels x held).1 (contactLevels x held).2 =
      { s with
        ctrl := { s.ctrl with debounce :=
          (s.ctrl.debounce.set x 4).set x.other (if held then min 4 (s.ctrl.debounce.get x.other + 1) else 0) }
        clock := { s.clock with panelDone := true }
        pins := { s.pins with forceA := if x = .a then true else held, forceB := if x = .b then true else held } } := by
  unfold State.contactsRead
  cases x with
  | a =>
    rw [show s.ctrl.debounce.a = 3 from hx]
    rfl
  | b =>
    rw [show s.ctrl.debounce.b = 3 from hx]
    rfl

/-- With both contacts closed a fourth time at one sampling, each press is refused, and A's record comes first (log 13). -/
theorem samplePanel_of_both {s : State} (ha : s.ctrl.debounce.a = 3) (hb : s.ctrl.debounce.b = 3) :
    samplePanel true true s = offerEvent (.panel .b true) (offerEvent (.panel .a true) (s.contactsRead true true)) := by
  have hpressed : ∀ n, n = 3 → pressedAt true n = true := fun n h => (pressedAt_iff _ _).mpr ⟨rfl, h⟩
  have hclosed : ∀ x, 1 ≤ (s.contactsRead true true).ctrl.debounce.get x := fun x => by
    unfold State.contactsRead debounceAfter satAdd
    cases x <;> simp [PerPort.get, Config.pressSamplings]
  rw [samplePanel_eq]
  simp only [if_pos (hpressed _ ha), if_pos (hpressed _ hb)]
  rw [press_of_other_closed (x := .a) (hclosed _)]
  exact press_of_other_closed (hclosed _)

/-- Settles O38: the press is judged in the state that has read both contacts, by the table of R78. -/
theorem pressForcesAReadyPort : Obligations.PressForcesAReadyPort := by
  unfold Obligations.PressForcesAReadyPort
  intro s x hrun hbegun hmade hpanel
  have hexec := exec_press hrun hbegun hmade hpanel x
  refine ⟨fun hcount held => ?_, ?_⟩
  · rw [hexec, if_neg hcount]
  intro hcount pressed counts
  have hread := fun held => contactsRead_of_press (held := held) hcount
  refine ⟨fun hother => ?_, fun hother => ?_, ?_⟩
  · have hclosed : 1 ≤ (s.contactsRead (contactLevels x true).1 (contactLevels x true).2).ctrl.debounce.get x.other := by
      rw [hread]
      simp
    rw [hexec, if_pos hcount, samplePanel_of_press hcount fun _ => hother, press_of_other_closed hclosed, hread]
    rfl
  · have hboth : ∀ y, s.ctrl.debounce.get y = 3 := fun y => (Port.eq_or_other x y).elim (fun h => h ▸ hcount) (fun h => h ▸ hother)
    have hlevels : contactLevels x true = (true, true) := by cases x <;> rfl
    have hcounts : counts true = ⟨4, 4⟩ := by
      show (s.ctrl.debounce.set x 4).set x.other (min 4 (s.ctrl.debounce.get x.other + 1)) = _
      rw [hother]
      cases x <;> rfl
    have hboth' := hread true
    rw [hlevels] at hboth'
    rw [hexec, if_pos hcount, hlevels, samplePanel_of_both (hboth .a) (hboth .b), hboth']
    rw [← hcounts]
    rfl
  · have hopen : (s.contactsRead (contactLevels x false).1 (contactLevels x false).2).ctrl.debounce.get x.other = 0 := by
      rw [hread]
      simp
    rw [hexec, if_pos hcount, samplePanel_of_press hcount (by simp), press_of_other_open hopen, hread, createPendingSwitch_eq]
    refine congrArg (fun u => Host.Outcome.next (State.settleLines u)) (if_congr Iff.rfl rfl (if_congr Iff.rfl rfl ?_))
    rw [recording_append]
    rfl

end Sys2Proof.Machine

/-! ### A request served at once (R125 to R128) -/

namespace Sys2Proof.Machine

/-- A reply behind those that the port held, in the state that has taken the request (R125, R128). -/
theorem placeReply_taking (p : Port) (reply : List Byte) (u : State) :
    placeReply p reply (u.taking p) = { u with
      ports := u.ports.set p
        { u.ports.get p with requests := [], wait := false, replies := (u.ports.get p).replies ++ frameMessage reply }
      pointer := p.other } := by
  cases p <;> rfl

/-- A request served at once whose verb leaves the ports and neither reads nor writes the queue, WAIT and the pointer: its reply is
placed, and the rest is the verb's (R125 to R128). -/
theorem submitRequest_served {s u : State} {p : Port} {tag verb : Byte} {operands : List Byte} {status : Status} {payload : List Byte}
    (hserve : s.CanServe p) (hlength : operands.length ≤ 94)
    (hverb : runVerb verb operands (s.taking p) = ⟨u.taking p, status, payload⟩) (hports : u.ports = s.ports) :
    (submitRequest p (tag :: verb :: operands) s).settleLines = s.served u p tag verb status payload := by
  rw [submitRequest_of_canServe hserve tag verb operands hlength, hverb, placeReply_taking]
  unfold State.served
  rw [hports]
  rfl

end Sys2Proof.Machine

/-! ### SWITCH requests (R70, R72, R135) -/

namespace Sys2Proof.Machine

theorem byte_eq_iff (b : Byte) (n : Nat) (h : n < 256) : b = BitVec.ofNat 8 n ↔ b.toNat = n := by
  rw [← BitVec.toNat_inj, BitVec.toNat_ofNat, Nat.mod_eq_of_lt h]

/-- The port operands are 0 and 1 (R158). -/
theorem portOfCode_eq (b : Byte) : portOfCode b = if 1 < b.toNat then none else some (if b = 0 then .a else .b) := by
  have hzero : b = 0 ↔ b.toNat = 0 := byte_eq_iff b 0 (by decide)
  have hone : b = 1 ↔ b.toNat = 1 := byte_eq_iff b 1 (by decide)
  unfold portOfCode
  simp only [hzero, hone]
  by_cases h0 : b.toNat = 0
  · simp [h0]
  · by_cases h1 : b.toNat = 1
    · simp [h1]
    · have hbig : 1 < b.toNat := by omega
      simp [h0, h1, hbig]

/-- The trigger operands are 0, 1 and 2, the last with its song (R158). -/
theorem triggerOfCode_eq (b song : Byte) :
    triggerOfCode b song
      = if 2 < b.toNat then none else some (if b = 0 then .now else if b = 1 then .atMark else .atSong song) := by
  have hzero : b = 0 ↔ b.toNat = 0 := byte_eq_iff b 0 (by decide)
  have hone : b = 1 ↔ b.toNat = 1 := byte_eq_iff b 1 (by decide)
  have htwo : b = 2 ↔ b.toNat = 2 := byte_eq_iff b 2 (by decide)
  unfold triggerOfCode
  simp only [hzero, hone, htwo]
  by_cases h0 : b.toNat = 0
  · simp [h0]
  · by_cases h1 : b.toNat = 1
    · simp [h1]
    · by_cases h2 : b.toNat = 2
      · simp [h2]
      · have hbig : 2 < b.toNat := by omega
        simp [h0, h1, h2, hbig]

/-- The operand tests of a SWITCH request come first (R135). -/
theorem doSwitch_eq (target trigger song : Byte) (s : State) :
    doSwitch target trigger song s =
      if 1 < target.toNat ∨ 2 < trigger.toNat then refuse s .badValue
      else
        let r := decideSwitch (if target = 0 then .a else .b)
          (if trigger = 0 then .now else if trigger = 1 then .atMark else .atSong song) s
        answerWith r.1 r.2 := by
  unfold doSwitch
  rw [portOfCode_eq, triggerOfCode_eq]
  by_cases ht : 1 < target.toNat
  · simp [ht]
  · by_cases hg : 2 < trigger.toNat <;> simp [ht, hg]

/-- The controller's table for a SWITCH request, with the rows in the order of R72 (log 24). -/
theorem decideSwitch_eq (t : Port) (trigger : Trigger) (s : State) :
    decideSwitch t trigger s =
      if s.ctrl.mode = .on t then (s, .already)
      else if s.ready t = false then (s, .notReady)
      else if s.ctrl.scheduled ≠ none then (s, .busy)
      else if s.ctrl.mode = .opening t ∨ s.ctrl.mode = .fade t.other then (s, .already)
      else if s.ctrl.mode = .opening t.other ∨ s.ctrl.mode = .idle then (s, .busy)
      else if s.ctrl.mode = .fade t then (scheduleStart .reversal t .request s, .ok)
      else (createPendingSwitch ⟨t, trigger, .request⟩ s, .pending) := by
  unfold decideSwitch
  by_cases hair : s.ctrl.mode = .on t
  · rw [if_pos hair, if_pos hair]
  cases hready : s.ready t with
  | false => simp [hair]
  | true =>
    cases hscheduled : s.ctrl.scheduled with
    | some st => simp [hair]
    | none =>
      cases hmode : s.ctrl.mode with
      | idle => simp
      | opening y => obtain rfl | rfl := Port.eq_or_other t y <;> simp
      | on y =>
        obtain rfl | rfl := Port.eq_or_other t y
        · exact absurd hmode hair
        · simp
      | fade y => obtain rfl | rfl := Port.eq_or_other t y <;> simp

/-- A function of a choice, of which the second case is known. -/
theorem apply_ite_of_neg {α β : Type} (f : α → β) {c : Prop} {_ : Decidable c} {x y : α} {z : β} (h : f y = z) :
    f (if c then x else y) = if c then f x else z :=
  h ▸ apply_ite f c x y

/-- The controller's decision does not see that the request has been taken. -/
theorem decideSwitch_taking (t : Port) (trigger : Trigger) (s : State) (p : Port) :
    decideSwitch t trigger (s.taking p) = ((decideSwitch t trigger s).1.taking p, (decideSwitch t trigger s).2) := by
  have hctrl : (s.taking p).ctrl = s.ctrl := rfl
  have hready : (s.taking p).ready t = s.ready t := rfl
  have hcreated : ∀ r, createPendingSwitch r (s.taking p) = (createPendingSwitch r s).taking p := fun r => by
    rw [createPendingSwitch_eq, createPendingSwitch_eq]
    rfl
  rw [decideSwitch_eq, decideSwitch_eq, hctrl, hready, hcreated]
  split_ifs <;> rfl

/-- Settles O48: the request is served at once, and its verb is the operand tests and then the controller's table. -/
theorem switchFollowsItsTable : Obligations.SwitchFollowsItsTable := by
  unfold Obligations.SwitchFollowsItsTable
  intro s p tag target trigger song hserve
  have hserved : ∀ {u : State} {status : Status}, doSwitch target trigger song (s.taking p) = ⟨u.taking p, status, []⟩ →
      u.ports = s.ports → exec (.switch p tag [target, trigger, song]) s = .next (s.served u p tag 0x06 status []) :=
    fun hverb hports =>
      (whileRunning_of_running hserve.1).trans (congrArg _ (submitRequest_served hserve (by simp) hverb hports))
  rw [doSwitch_eq] at hserved
  dsimp only
  by_cases hvalue : 1 < target.toNat ∨ 2 < trigger.toNat
  · rw [if_pos hvalue] at hserved ⊢
    exact hserved rfl rfl
  · rw [if_neg hvalue] at hserved ⊢
    rw [decideSwitch_taking] at hserved
    rw [hserved rfl (frame_decideSwitch _ _ s).ports, decideSwitch_eq, createPendingSwitch_eq]
    have row := @apply_ite_of_neg _ _ fun d : State × Status => s.served d.1 p tag 0x06 d.2 []
    exact congrArg Host.Outcome.next (row (row (row (row (row (row rfl))))))

end Sys2Proof.Machine

/-! ### A sample whose answer is given ahead of it (R92; log 3) -/

namespace Sys2Proof.Machine

/-- The next program sample of a period in progress is made, and the engine looks after the last (R92; log 7). -/
theorem exec_programSample {s : State} (hrun : s.run = .running) (hbegun : s.clock.begun = true) (hmade : s.clock.made < 32) :
    exec .programSample s = .next (lookAfterSpan (makeSample s)).settleLines := by
  have hexec := whileRunning_of_running (f := nextSample) hrun
  unfold nextSample at hexec
  rwa [atSample_of_begun hbegun hmade] at hexec

/-- Past its answers, a sample reads of the state before it only the tables (R92, R106). -/
theorem makeSample_congr {s t : State} (htables : t.tables = s.tables)
    (hsteps : sampleStep2 (sampleStep1 t) = sampleStep2 (sampleStep1 s)) : makeSample t = makeSample s := by
  unfold makeSample sampleMixed recordAdoption
  rw [hsteps, htables]

/-- A command that answers the next sample ahead of it leaves that sample to be made, when the sample finds nothing more to answer. -/
theorem exec_programSample_after {c : Instr} {s t u : State} (hrun : s.run = .running) (hbegun : s.clock.begun = true)
    (hmade : s.clock.made < 32) (hexec : exec c s = .next u.settleLines) (hframe : u.run = s.run ∧ u.clock = s.clock ∧ u.lines = s.lines)
    (hsame : makeSample u = makeSample s) (ht : exec c s = .next t) :
    exec .programSample { t with lines := s.lines } = exec .programSample s := by
  obtain ⟨hurun, hclock, hlines⟩ := hframe
  have hu : { t with lines := s.lines } = u := by
    rw [← Host.Outcome.next.inj (hexec.symm.trans ht), ← hlines]
    rfl
  rw [hu, exec_programSample hrun hbegun hmade,
    exec_programSample (hurun.trans hrun) (by rw [hclock]; exact hbegun) (by rw [hclock]; exact hmade), hsame]

/-! #### What an answer does to the mixer and the tables -/

theorem beginTransition_mixer (target : Port) (cause : SwitchCause) (s : State) :
    (beginTransition target cause s).mixer = s.mixer ∧ (beginTransition target cause s).tables = s.tables := by
  unfold beginTransition convertReversal
  dsimp only
  split
  · split <;> exact ⟨rfl, rfl⟩
  · exact ⟨rfl, rfl⟩

end Sys2Proof.Machine

/-! ### The controller's steps, whole (R57 to R59, R65, R68, R69, R71) -/

namespace Sys2Proof.Machine

/-- All that setting DEGRADED does (R65). -/
theorem setDegraded_eq (s : State) :
    setDegraded s = { s with
      ctrl := { s.ctrl with degraded := true }
      events := s.recording (if s.ctrl.degraded = true then [] else [.degraded s.ctrl.mode.onAir]) } := by
  unfold setDegraded
  split
  · next h => rw [← h]; rfl
  · rfl

/-- All that the beginning of a transition or a cut does, with no start left to convert (R58, R59; log 14). -/
theorem beginTransition_eq {target : Port} {cause : SwitchCause} {s : State} (h : s.ctrl.scheduled = none) :
    beginTransition target cause s =
      let m := s.tables.live.fadeSpans cause
      let mode := enteredMode s.ctrl.mode target m
      let aligned := decide (alignmentState s.align = .aligned)
      { s with
        ctrl := { s.ctrl with mode := mode, q := 0, len := 32 * m, aligned := aligned, sat := 0, degraded := false, holdoff := 0 }
        align := { s.align with transition := if m = 0 then s.align.transition else true }
        events := s.recording (.switchStart s.ctrl.mode.onAir target cause aligned m
            (State.outputPosition { s with ctrl := { s.ctrl with mode := mode } })
          :: if m = 0 then [.switchEnd target 0] else []) } := by
  unfold beginTransition convertReversal
  dsimp only [State.live]
  split
  · next hcut =>
    split
    · next hreversal => cases hreversal.symm.trans h
    · rfl
  · next hfade => rfl

/-- A start withdrawn in IDLE gives way to an opening toward the other port, if that one is ready (R69). -/
theorem withdrawStart_of_idle {s : State} {st : ScheduledStart} (hst : s.ctrl.scheduled = some st) (hmode : s.ctrl.mode = .idle) :
    withdrawStart s =
      if s.ready st.target.other = true then
        { s with mixer := { s.mixer with owedStart := false },
                 ctrl := { s.ctrl with scheduled := some ⟨.opening, st.target.other, .opening⟩ } }
      else { s with ctrl := { s.ctrl with scheduled := none } } := by
  unfold withdrawStart openingRechoice openingChoice scheduleStart
  rw [hst]
  dsimp only
  rw [hmode]
  rfl

/-- A start withdrawn with a port on air, or coming on air, leaves the part DEGRADED when that port is not ready (R69). -/
theorem withdrawStart_of_judged {s : State} {st : ScheduledStart} {x y : Port} (hst : s.ctrl.scheduled = some st)
    (hmode : s.ctrl.mode = .on y ∧ x = y ∨ s.ctrl.mode = .fade x ∧ y = x.other) :
    withdrawStart s =
      if s.ready y = false ∧ s.ctrl.degraded = false then
        { s with ctrl := { s.ctrl with scheduled := none, degraded := true }, events := s.recording [.degraded (some x)] }
      else { s with ctrl := { s.ctrl with scheduled := none } } := by
  have hjudged : withdrawStart s = if s.ready y = true then { s with ctrl := { s.ctrl with scheduled := none } }
      else setDegraded { s with ctrl := { s.ctrl with scheduled := none } } := by
    unfold withdrawStart
    rw [hst]
    obtain ⟨hmode, -⟩ | ⟨hmode, rfl⟩ := hmode <;> simp only [hmode] <;> rfl
  have hair : s.ctrl.mode.onAir = some x := by
    obtain ⟨hmode, rfl⟩ | ⟨hmode, -⟩ := hmode <;> rw [hmode] <;> rfl
  rw [hjudged]
  unfold setDegraded
  cases s.ready y with
  | true => rfl
  | false =>
    by_cases hd : s.ctrl.degraded = true
    · simp [hd]
    · rw [if_neg (by simp), if_neg hd, if_pos ⟨rfl, by simpa using hd⟩, ← hair]
      rfl

/-- An OPEN or FADE start that its state fits, withdrawn (R69). -/
theorem withdrawStart_of_start {s : State} {act : StartAction} {y : Port} {cause : SwitchCause}
    (hst : s.ctrl.scheduled = some ⟨act, y, cause⟩)
    (hfits : act = .opening ∧ s.ctrl.mode = .idle ∨ act = .fade ∧ s.ctrl.mode = .on y.other) :
    withdrawStart s =
      if s.ctrl.mode = .idle ∧ s.ready y.other = true then
        { s with mixer := { s.mixer with owedStart := false },
                 ctrl := { s.ctrl with scheduled := some ⟨.opening, y.other, .opening⟩ } }
      else if s.ctrl.mode = .on y.other ∧ s.ready y.other = false ∧ s.ctrl.degraded = false then
        { s with ctrl := { s.ctrl with scheduled := none, degraded := true }, events := s.recording [.degraded (some y.other)] }
      else { s with ctrl := { s.ctrl with scheduled := none } } := by
  obtain ⟨-, hmode⟩ | ⟨-, hmode⟩ := hfits
  · have hon : s.ctrl.mode ≠ .on y.other := by rw [hmode]; exact Mode.noConfusion
    rw [withdrawStart_of_idle hst hmode, if_neg (c := _ ∧ _ ∧ _) fun h => hon h.1]
    exact if_congr (by simp [hmode]) rfl rfl
  · have hidle : s.ctrl.mode ≠ .idle := by rw [hmode]; exact Mode.noConfusion
    rw [withdrawStart_of_judged hst (.inl ⟨hmode, rfl⟩), if_neg (c := s.ctrl.mode = .idle ∧ _) fun h => hidle h.1]
    exact if_congr (by simp [hmode]) rfl rfl

/-- A scheduled OPEN or FADE start that its state fits begins, its target ready, or is withdrawn (R58, R69). -/
theorem takeScheduled_of_start {s : State} {act : StartAction} {y : Port} {cause : SwitchCause}
    (hst : s.ctrl.scheduled = some ⟨act, y, cause⟩)
    (hfits : act = .opening ∧ s.ctrl.mode = .idle ∨ act = .fade ∧ s.ctrl.mode = .on y.other) :
    takeScheduled s = if s.ready y = true
      then beginTransition y cause { s with ctrl := { s.ctrl with scheduled := none } } else withdrawStart s := by
  have hfit : startFits s.ctrl.mode ⟨act, y, cause⟩ = true := by
    obtain ⟨rfl, hmode⟩ | ⟨rfl, hmode⟩ := hfits <;> rw [hmode] <;> simp [startFits]
  unfold takeScheduled
  rw [hst]
  refine (if_pos hfit).trans ?_
  obtain ⟨rfl, -⟩ | ⟨rfl, -⟩ := hfits <;> rfl

/-- A scheduled REVERSAL toward the outgoing port turns the fade, that port ready, or is withdrawn (R68, R69). -/
theorem takeScheduled_of_reversal {s : State} {x : Port} {cause : SwitchCause} (hst : s.ctrl.scheduled = some ⟨.reversal, x, cause⟩)
    (hmode : s.ctrl.mode = .fade x) :
    takeScheduled s = if s.ready x = true then
        { s with ctrl := { s.ctrl with mode := .fade x.other, q := s.ctrl.len - s.ctrl.q, scheduled := none },
                 events := s.recording [.switchReversed x (s.ctrl.len - s.ctrl.q)] }
      else withdrawStart s := by
  have hfit : startFits s.ctrl.mode ⟨.reversal, x, cause⟩ = true := by
    rw [hmode]
    simp [startFits]
  unfold takeScheduled
  rw [hst]
  exact if_pos hfit

/-! #### An answer that has been given finds nothing more to answer -/

/-- Where no answer is owed to a scheduled start, a new one leaves the mixer. -/
theorem openingChoice_mixer {p : Port} {s : State} (h : s.mixer.owedStart = false) : (openingChoice p s).mixer = s.mixer := by
  have hwrite : ({ s.mixer with owedStart := false } : Mixer) = s.mixer := by rw [← h]
  unfold openingChoice
  split
  · exact hwrite
  · split <;> rfl

theorem withdrawStart_mixer {s : State} (h : s.mixer.owedStart = false) : (withdrawStart s).mixer = s.mixer := by
  unfold withdrawStart
  split
  · rfl
  · dsimp only
    split
    · exact (apply_ite State.mixer _ _ _).trans (ite_eq_right_iff.mpr fun _ => openingChoice_mixer h)
    · rfl
    all_goals
      split
      · rfl
      · rw [setDegraded_eq]

theorem takeScheduled_mixer {s : State} (h : s.mixer.owedStart = false) : (takeScheduled s).mixer = s.mixer := by
  have hscheduled : ∀ st, (beginScheduled st s).mixer = s.mixer := fun st => by
    unfold beginScheduled
    split
    · exact (beginTransition_mixer _ _ _).1
    · exact withdrawStart_mixer h
  unfold takeScheduled
  split
  · rfl
  · next st hst =>
    split
    · cases st.action with
      | opening => exact hscheduled st
      | fade => exact hscheduled st
      | reversal =>
        refine (apply_ite State.mixer _ _ _).trans ?_
        rw [withdrawStart_mixer h]
        exact ite_self _
    · rfl

theorem takeScheduled_tables (s : State) : (takeScheduled s).tables = s.tables := by
  have hwithdrawn : (withdrawStart s).tables = s.tables := (within_withdrawStart s).ask.tables
  have hscheduled : ∀ st, (beginScheduled st s).tables = s.tables := fun st => by
    unfold beginScheduled
    split
    · exact (beginTransition_mixer _ _ _).2
    · exact hwithdrawn
  unfold takeScheduled
  split
  · rfl
  · next st hst =>
    split
    · cases st.action with
      | opening => exact hscheduled st
      | fade => exact hscheduled st
      | reversal =>
        refine (apply_ite State.tables _ _ _).trans ?_
        rw [hwithdrawn]
        exact ite_self _
    · rfl

/-- The answer to a span start with a scheduled start is given once, and leaves the tables (R57). -/
theorem answerScheduled_keeps (s : State) :
    (answerScheduled s).mixer = { s.mixer with owedStart := false } ∧ (answerScheduled s).tables = s.tables := by
  unfold answerScheduled
  dsimp only
  split
  · exact ⟨takeScheduled_mixer rfl, takeScheduled_tables _⟩
  · exact ⟨rfl, rfl⟩

/-- A part that owes its scheduled start no answer gives none. -/
theorem answerScheduled_of_answered {s : State} (h : s.mixer.owedStart = false) : answerScheduled s = s := by
  rw [answerScheduled_of_none (.inl h), ← h]

/-- The sample whose scheduled start has been answered is the one that answers it (R92). -/
theorem makeSample_answerScheduled {s : State} (hmade : s.clock.made = 0) : makeSample (answerScheduled s) = makeSample s := by
  have hmade' : (answerScheduled s).clock.made = 0 := by rw [(frame_answerScheduled s).clock, hmade]
  obtain ⟨hmixer, htables⟩ := answerScheduled_keeps s
  have hanswered : answerScheduled (answerScheduled s) = answerScheduled s := answerScheduled_of_answered (by rw [hmixer])
  refine makeSample_congr htables ?_
  unfold sampleStep1 controllerSpanStart
  rw [if_pos hmade, if_pos hmade', hanswered]

/-! #### The commands of a scheduled start (R57, R68) -/

/-- At a span start that owes an answer to a scheduled start of the action wanted, the command gives that answer (log 3). -/
theorem answerStart_of_owed {wanted : StartAction → Bool} {s : State} {st : ScheduledStart} (h : s.AtSpanStart)
    (howed : s.mixer.owedStart = true) (hst : s.ctrl.scheduled = some st) (hwanted : wanted st.action = true) :
    answerStart wanted s = answerScheduled s := by
  obtain ⟨-, hbegun, hmade⟩ := h
  unfold answerStart startOwed
  rw [atSample_of_begun hbegun (by omega)]
  simp [hmade, howed, hst, hwanted]

theorem answerScheduled_of_owed {s : State} (howed : s.mixer.owedStart = true) :
    answerScheduled s = takeScheduled { s with mixer := { s.mixer with owedStart := false } } :=
  if_pos howed

/-- The command that answers a span start leaves the sample that PROGRAM_SAMPLE alone makes (R92; log 3). -/
theorem exec_programSample_after_start {c : Instr} {wanted : StartAction → Bool} {s t : State} {st : ScheduledStart}
    (h : s.AtSpanStart) (hc : exec c s = whileRunning (answerStart wanted) s) (howed : s.mixer.owedStart = true)
    (hst : s.ctrl.scheduled = some st) (hwanted : wanted st.action = true) (ht : exec c s = .next t) :
    exec .programSample { t with lines := s.lines } = exec .programSample s := by
  have hanswer := answerStart_of_owed h howed hst hwanted
  obtain ⟨hrun, hbegun, hmade⟩ := h
  have hframe := frame_answerScheduled s
  rw [whileRunning_of_running hrun, hanswer] at hc
  exact exec_programSample_after hrun hbegun (by omega) hc ⟨hframe.run, hframe.clock, hframe.lines⟩
    (makeSample_answerScheduled hmade) ht

/-- Settles O19: the command answers the span start, by `takeScheduled_of_start`, and the sample then finds it answered. -/
theorem scheduledStartBeginsOrIsWithdrawn : Obligations.ScheduledStartBeginsOrIsWithdrawn := by
  unfold Obligations.ScheduledStartBeginsOrIsWithdrawn
  intro s act y cause h howed hst hfits m mode aligned position
  have hwanted : isOpenOrFade act = true := by obtain ⟨rfl, -⟩ | ⟨rfl, -⟩ := hfits <;> rfl
  refine ⟨?_, fun t => exec_programSample_after_start h rfl howed hst hwanted⟩
  refine (whileRunning_of_running h.1).trans (congrArg (fun u => Host.Outcome.next (State.settleLines u)) ?_)
  rw [answerStart_of_owed h howed hst hwanted, answerScheduled_of_owed howed]
  refine (takeScheduled_of_start (s := { s with mixer := { s.mixer with owedStart := false } }) hst hfits).trans
    (if_congr Iff.rfl ?_ ?_)
  · have hbegin := beginTransition_eq (target := y) (cause := cause)
      (s := { s with mixer := { s.mixer with owedStart := false }, ctrl := { s.ctrl with scheduled := none } }) rfl
    have hentered : enteredMode s.ctrl.mode y (s.tables.live.fadeSpans cause) = mode := by
      obtain ⟨rfl, hmode⟩ | ⟨rfl, hmode⟩ := hfits <;> rw [hmode] <;> rfl
    dsimp only at hbegin
    rw [hentered] at hbegin
    exact hbegin
  · exact withdrawStart_of_start hst hfits

/-- Settles O20: the command answers the span start, by `takeScheduled_of_reversal`, and the sample then finds it answered. -/
theorem reversalTurnsTheFade : Obligations.ReversalTurnsTheFade := by
  unfold Obligations.ReversalTurnsTheFade
  intro s x cause h howed hst hmode
  refine ⟨?_, fun t => exec_programSample_after_start h rfl howed hst rfl⟩
  refine (whileRunning_of_running h.1).trans (congrArg (fun u => Host.Outcome.next (State.settleLines u)) ?_)
  rw [answerStart_of_owed h howed hst rfl, answerScheduled_of_owed howed]
  refine (takeScheduled_of_reversal (s := { s with mixer := { s.mixer with owedStart := false } }) hst hmode).trans
    (if_congr Iff.rfl rfl ?_)
  exact withdrawStart_of_judged hst (.inr ⟨hmode, rfl⟩)

end Sys2Proof.Machine

/-! ### A pending switch record that meets its trigger (R71) -/

namespace Sys2Proof.Machine

/-- A span start that owes nothing is answered as it stands. -/
theorem sampleStep1_of_answered {s : State}
    (h : s.clock.made = 0 → s.mixer.owedStart = false ∧ s.mixer.owedSwitch = false ∧ s.mixer.owedApply = false) :
    sampleStep1 s = s := by
  unfold sampleStep1
  split
  · next hmade =>
    obtain ⟨hstart, hswitch, happly⟩ := h hmade
    have hnow : answerNow s = s := by rw [answerNow_of_none (.inl hswitch), ← hswitch]
    unfold controllerSpanStart tableSpanStart
    rw [answerScheduled_of_answered hstart, hnow]
    simp only [happly, Bool.false_and, Bool.false_eq_true, if_false]
    rw [← happly]
  · rfl

/-- No adoption is recorded between states with the same tables. -/
theorem recordAdoption_of_tables {s t : State} (h : t.tables = s.tables) : recordAdoption s t = t := by
  unfold recordAdoption
  rw [h]
  cases s.tables.apply <;> rfl

/-- Of the mixer, the output position reads only the delays (R53, R58). -/
theorem outputPosition_mixer {s : State} {x : Mixer} (h : x.delays = s.mixer.delays) :
    State.outputPosition { s with mixer := x } = s.outputPosition := by
  unfold State.outputPosition State.restamped State.ringSlot
  dsimp only
  rw [h]

/-- All that a record that meets its trigger does: its transition begins, or it is removed (R58, R59, R71). -/
theorem firePendingSwitch_eq {r : PendingSwitch} {s : State} (harmed : s.SwitchArmed) (hr : s.ctrl.pendingSwitch = some r) :
    firePendingSwitch r s =
      let m := s.tables.live.fadeSpans r.cause
      let mode : Mode := if m = 0 then .on r.target else .fade r.target.other
      let aligned := decide (alignmentState s.align = .aligned)
      if s.ready r.target = true then
        { s with
          ctrl := { s.ctrl with mode := mode, q := 0, len := 32 * m, aligned := aligned, sat := 0, pendingSwitch := none,
                                degraded := false, holdoff := 0 }
          align := { s.align with transition := if m = 0 then s.align.transition else true }
          events := s.recording (.switchStart (some r.target.other) r.target r.cause aligned m
              (State.outputPosition { s with ctrl := { s.ctrl with mode := mode } })
            :: if m = 0 then [.switchEnd r.target 0] else []) }
      else { s with ctrl := { s.ctrl with pendingSwitch := none }, events := s.recording [.pendingCancelled r.target r.cause] } := by
  obtain ⟨hmode, hscheduled⟩ := harmed r hr
  unfold firePendingSwitch
  refine if_congr Iff.rfl ?_ ?_
  · have hbegin := beginTransition_eq (target := r.target) (cause := r.cause)
      (s := { s with ctrl := { s.ctrl with pendingSwitch := none } }) hscheduled
    have hentered : enteredMode s.ctrl.mode r.target (s.tables.live.fadeSpans r.cause)
        = if s.tables.live.fadeSpans r.cause = 0 then .on r.target else .fade r.target.other := by
      rw [hmode]
      rfl
    have hair : s.ctrl.mode.onAir = some r.target.other := by
      rw [hmode]
      rfl
    dsimp only at hbegin
    rw [hentered, hair] at hbegin
    exact hbegin
  · unfold cancelPendingSwitch
    rw [hr]
    rfl

/-- The record fires alike whatever the mixer holds, the delays apart. -/
theorem firePendingSwitch_mixer {r : PendingSwitch} {s : State} {x : Mixer} (h : x.delays = s.mixer.delays)
    (harmed : s.SwitchArmed) (hr : s.ctrl.pendingSwitch = some r) :
    firePendingSwitch r { s with mixer := x } = { firePendingSwitch r s with mixer := x } := by
  have hposition := fun c : Controller => outputPosition_mixer (s := { s with ctrl := c }) h
  have hready : State.ready { s with mixer := x } r.target = s.ready r.target := rfl
  rw [firePendingSwitch_eq harmed hr, firePendingSwitch_eq (s := { s with mixer := x }) harmed hr]
  dsimp only at hposition ⊢
  rw [hposition]
  rw [hready]
  by_cases htarget : s.ready r.target = true
  · rw [if_pos htarget, if_pos htarget]
    rfl
  · rw [if_neg htarget, if_neg htarget]
    rfl

/-- What a record leaves as it fires. -/
theorem firePendingSwitch_keeps {r : PendingSwitch} {s : State} (harmed : s.SwitchArmed) (hr : s.ctrl.pendingSwitch = some r) :
    (firePendingSwitch r s).mixer = s.mixer ∧ (firePendingSwitch r s).tables = s.tables := by
  rw [firePendingSwitch_eq harmed hr]
  dsimp only
  split <;> exact ⟨rfl, rfl⟩

/-! #### A NOW record at its span start -/

/-- The mixer once the controller has answered the span start, if the next sample is the first of its span (R92 step 1). -/
def State.answeredMixer (s : State) : Mixer :=
  if s.clock.made = 0 then { s.mixer with owedStart := false, owedSwitch := false } else s.mixer

/-- A NOW record that is owed its span start fires there, beside which no start is scheduled (R70, R71). -/
theorem controllerSpanStart_of_now {r : PendingSwitch} {s : State} (hmade : s.clock.made = 0) (harmed : s.SwitchArmed)
    (hr : s.ctrl.pendingSwitch = some r) (htrigger : r.trigger = .now) (howed : s.mixer.owedSwitch = true) :
    controllerSpanStart s = firePendingSwitch r { s with mixer := s.answeredMixer } := by
  unfold controllerSpanStart State.answeredMixer
  rw [answerScheduled_of_none (.inr (harmed r hr).2), if_pos hmade]
  exact answerNow_of_owed (s := { s with mixer := { s.mixer with owedStart := false } }) harmed hr htrigger howed

/-- The command of a NOW record at its span start is the controller's answer to that span start (log 3). -/
theorem fireAtSample_of_now {r : PendingSwitch} {s : State} (hbegun : s.clock.begun = true) (hmade : s.clock.made = 0)
    (harmed : s.SwitchArmed) (hr : s.ctrl.pendingSwitch = some r) (htrigger : r.trigger = .now) (howed : s.mixer.owedSwitch = true) :
    fireAtSample s = controllerSpanStart s := by
  have hmeets : s.switchAtSpanStart = some r := by
    rw [switchAtSpanStart_eq, armedSwitch_of_armed harmed hr]
    simp [htrigger]
  have hfires : nowFires (answerScheduled s) = true := by
    rw [answerScheduled_of_none (.inr (harmed r hr).2)]
    show (decide (s.clock.made = 0) && s.mixer.owedSwitch && s.switchAtSpanStart.isSome) = true
    rw [hmade, howed, hmeets]
    rfl
  unfold fireAtSample scheduledAnswered
  rw [atSample_of_begun hbegun (by omega), if_pos hmade]
  exact if_pos hfires

/-- The sample whose NOW record has fired is the one that fires it (R92). -/
theorem makeSample_of_now {r : PendingSwitch} {s : State} (hmade : s.clock.made = 0) (harmed : s.SwitchArmed)
    (hr : s.ctrl.pendingSwitch = some r) (htrigger : r.trigger = .now) (howed : s.mixer.owedSwitch = true) :
    makeSample (controllerSpanStart s) = makeSample s := by
  have hmade' : (controllerSpanStart s).clock.made = 0 := by rw [(frame_controllerSpanStart s).clock, hmade]
  obtain ⟨hmixer, htables⟩ := firePendingSwitch_keeps (s := { s with mixer := s.answeredMixer }) harmed hr
  rw [← controllerSpanStart_of_now hmade harmed hr htrigger howed] at hmixer htables
  have hfired : controllerSpanStart (controllerSpanStart s) = controllerSpanStart s := by
    have hstart : (controllerSpanStart s).mixer.owedStart = false := by rw [hmixer, State.answeredMixer, if_pos hmade]
    have hswitch : (controllerSpanStart s).mixer.owedSwitch = false := by rw [hmixer, State.answeredMixer, if_pos hmade]
    show answerNow (answerScheduled (controllerSpanStart s)) = _
    rw [answerScheduled_of_answered hstart, answerNow_of_none (.inl hswitch), ← hswitch]
  refine makeSample_congr htables ?_
  unfold sampleStep1
  rw [if_pos hmade, if_pos hmade', hfired]

/-! #### A mark record at its mark -/

theorem switchAtSpanStart_of_waiting {r : PendingSwitch} {s : State} (harmed : s.SwitchArmed) (hr : s.ctrl.pendingSwitch = some r)
    (htrigger : r.trigger ≠ .now) : s.switchAtSpanStart = none := by
  rw [switchAtSpanStart_eq, armedSwitch_of_armed harmed hr]
  simpa using htrigger

/-- A record that waits for a mark lets a span start pass, with no apply record to meet it (R71, R104). -/
theorem sampleStep1_of_waiting {r : PendingSwitch} {s : State} (harmed : s.SwitchArmed) (hr : s.ctrl.pendingSwitch = some r)
    (htrigger : r.trigger ≠ .now) (happly : s.clock.made = 0 → s.mixer.owedApply = false) :
    sampleStep1 s = { s with mixer := s.answeredMixer } := by
  have hpasses := switchAtSpanStart_of_waiting harmed hr htrigger
  unfold State.answeredMixer
  by_cases hmade : s.clock.made = 0
  · have hstart := answerScheduled_of_none (s := s) (.inr (harmed r hr).2)
    unfold sampleStep1 controllerSpanStart tableSpanStart
    rw [if_pos hmade, if_pos hmade, hstart,
      answerNow_of_none (s := { s with mixer := { s.mixer with owedStart := false } }) (.inr hpasses)]
    simp only [happly hmade, Bool.false_and, Bool.false_eq_true, if_false]
  · unfold sampleStep1
    rw [if_neg hmade, if_neg hmade]

/-- With a mark on the port on air, a record that waits for it fires at it (R71). -/
theorem controllerMark_of_meets {r : PendingSwitch} {m : MarkReport} {s : State} (harmed : s.SwitchArmed)
    (hr : s.ctrl.pendingSwitch = some r) (hport : m.port = r.target.other) (htrigger : r.trigger = .atMark ∨ r.trigger = .atSong m.song) :
    s.switchAtMark m = some r ∧ controllerMark m s = firePendingSwitch r s := by
  have hmeets : s.switchAtMark m = some r := by
    rw [switchAtMark_eq, if_pos (by rw [hport]; exact (harmed r hr).1), armedSwitch_of_armed harmed hr]
    simpa using htrigger
  refine ⟨hmeets, ?_⟩
  unfold controllerMark
  rw [hmeets]

/-- The state in which a record meets the mark of the next sample: the span start has passed it by. -/
def State.atItsMark (s : State) : State :=
  { s with mixer := s.answeredMixer }

/-- The mixer once that mark is noted as well (R95). -/
def State.markedMixer (s : State) : Mixer :=
  { s.answeredMixer with earlyMark := none, firstMark := some (s.answeredMixer.firstMark.getD s.clock.made) }

section

variable {r : PendingSwitch} {s : State} {song : Byte} (harmed : s.SwitchArmed) (hr : s.ctrl.pendingSwitch = some r)
  (hearly : s.mixer.earlyMark = none) (happly : s.clock.made = 0 → s.mixer.owedApply = false)
  (hmark : s.markRead r.target.other = some song) (htrigger : r.trigger = .atMark ∨ r.trigger = .atSong song)

include harmed hr hearly happly hmark htrigger

/-- The span start passes the record by, the next sample reports its mark, and the record meets that mark. -/
theorem atItsMark_meets :
    sampleStep1 s = s.atItsMark ∧ s.atItsMark.sampleMark = some ⟨r.target.other, song⟩
      ∧ s.atItsMark.switchAtMark ⟨r.target.other, song⟩ = some r
      ∧ controllerMark ⟨r.target.other, song⟩ s.atItsMark = firePendingSwitch r s.atItsMark := by
  have hnot : r.trigger ≠ .now := by obtain h | h := htrigger <;> rw [h] <;> exact Trigger.noConfusion
  have h1 : sampleStep1 s = s.atItsMark := sampleStep1_of_waiting harmed hr hnot happly
  have hsame := (sameReadings_step1 s).sampleMark (by rw [h1]; rfl) (frame_sampleStep1 s).earlyMark
  rw [sampleMark_of_markRead (harmed r hr).1 hearly hmark, h1] at hsame
  exact ⟨h1, hsame, controllerMark_of_meets (s := s.atItsMark) harmed hr rfl htrigger⟩

/-- The command of a record at its mark: the record fires, and the mark stays to be seen by table memory (log 3). -/
theorem fireAtSample_of_mark (hbegun : s.clock.begun = true) (hmade : s.clock.made < 32) :
    fireAtSample s = keepMark ⟨r.target.other, song⟩ (firePendingSwitch r s.atItsMark) := by
  obtain ⟨h1, hreports, hmeets, hfires⟩ := atItsMark_meets harmed hr hearly happly hmark htrigger
  have hwaits : s.switchAtSpanStart = none :=
    switchAtSpanStart_of_waiting harmed hr (by obtain h | h := htrigger <;> rw [h] <;> exact Trigger.noConfusion)
  have hpasses : nowFires (scheduledAnswered s) = false := by
    have hnone : (scheduledAnswered s).switchAtSpanStart = none := by
      unfold scheduledAnswered
      split
      · rw [answerScheduled_of_none (.inr (harmed r hr).2)]
        exact hwaits
      · exact hwaits
    simp [nowFires, hnone]
  unfold fireAtSample
  rw [atSample_of_begun hbegun hmade]
  dsimp only
  rw [hpasses, h1, hreports]
  simp only [hmeets, hfires, Option.isSome_some, if_true, Bool.false_eq_true, if_false]
  have htables : (firePendingSwitch r s.atItsMark).tables = s.tables := (firePendingSwitch_keeps (s := s.atItsMark) harmed hr).2
  rw [recordAdoption_of_tables htables]

/-- The sample whose mark record has fired is the one that fires it (R92). -/
theorem makeSample_of_mark : makeSample (keepMark ⟨r.target.other, song⟩ (firePendingSwitch r s.atItsMark)) = makeSample s := by
  obtain ⟨h1, hreports, -, hfires⟩ := atItsMark_meets harmed hr hearly happly hmark htrigger
  obtain ⟨hmixer, htables⟩ := firePendingSwitch_keeps (s := s.atItsMark) harmed hr
  have hclock := (frame_firePendingSwitch r s.atItsMark).clock
  have hanswered : sampleStep1 (keepMark ⟨r.target.other, song⟩ (firePendingSwitch r s.atItsMark))
      = keepMark ⟨r.target.other, song⟩ (firePendingSwitch r s.atItsMark) := by
    refine sampleStep1_of_answered fun hmade => ?_
    have hmade : s.clock.made = 0 := by rw [← hmade]; exact congrArg Clock.made hclock.symm
    show (firePendingSwitch r s.atItsMark).mixer.owedStart = false ∧ (firePendingSwitch r s.atItsMark).mixer.owedSwitch = false
      ∧ (firePendingSwitch r s.atItsMark).mixer.owedApply = false
    rw [hmixer]
    simp [State.atItsMark, State.answeredMixer, hmade, happly hmade]
  refine makeSample_congr htables ?_
  have hfired : noteMark { keepMark ⟨r.target.other, song⟩ (firePendingSwitch r s.atItsMark) with mixer :=
        { (keepMark ⟨r.target.other, song⟩ (firePendingSwitch r s.atItsMark)).mixer with earlyMark := none } }
      = { firePendingSwitch r s.atItsMark with mixer := s.markedMixer } := by
    rw [noteMark_eq]
    unfold keepMark
    dsimp only
    rw [hmixer, hclock]
    rfl
  have hwaiting : noteMark { s.atItsMark with mixer := { s.atItsMark.mixer with earlyMark := none } }
      = { s.atItsMark with mixer := s.markedMixer } := noteMark_eq _
  have hdelays : s.markedMixer.delays = s.atItsMark.mixer.delays := rfl
  have hnone := controllerMark_of_none (s := { firePendingSwitch r s.atItsMark with mixer := s.markedMixer })
    ⟨r.target.other, song⟩ (firePendingSwitch_ctrl r s.atItsMark).1
  have hmeets := (controllerMark_of_meets (s := { s.atItsMark with mixer := s.markedMixer }) (m := ⟨r.target.other, song⟩)
    harmed hr rfl htrigger).2
  rw [h1, hanswered, sampleStep2_of_some hreports, sampleStep2_of_some (m := ⟨r.target.other, song⟩) rfl]
  unfold answerMark
  rw [hfired, hwaiting, hnone, hmeets, firePendingSwitch_mixer hdelays harmed hr]

end

/-- A record at its mark fires with that mark kept for table memory. -/
theorem keepMark_firePendingSwitch {r : PendingSwitch} {s : State} (m : MarkReport) (harmed : s.SwitchArmed)
    (hr : s.ctrl.pendingSwitch = some r) :
    keepMark m (firePendingSwitch r s.atItsMark)
      = firePendingSwitch r { s with mixer := { s.answeredMixer with earlyMark := some m } } := by
  have hmixer := (firePendingSwitch_keeps (s := s.atItsMark) harmed hr).1
  have hwrite := firePendingSwitch_mixer (s := s.atItsMark) (x := { s.answeredMixer with earlyMark := some m }) rfl harmed hr
  unfold keepMark
  rw [hmixer]
  exact hwrite.symm

/-- Settles O21: the record fires in the state that the span start leaves, and the sample then finds it gone. -/
theorem pendingSwitchFiresAtItsTrigger : Obligations.PendingSwitchFiresAtItsTrigger := by
  unfold Obligations.PendingSwitchFiresAtItsTrigger
  intro s r song hrun hbegun harmed hr hearly hmeets m mode aligned position answered s1
  have hdelays : s1.mixer.delays = s.mixer.delays := by
    show (if r.trigger = .now then s.answeredMixer else { s.answeredMixer with earlyMark := some ⟨r.target.other, song⟩ }).delays = _
    unfold State.answeredMixer
    split_ifs <;> rfl
  have hposition : State.outputPosition { s1 with ctrl := { s1.ctrl with mode := mode } } = position :=
    outputPosition_mixer (s := { s with ctrl := { s.ctrl with mode := mode } }) hdelays
  have hcomes : fireAtSample s = firePendingSwitch r s1 ∧ makeSample (firePendingSwitch r s1) = makeSample s := by
    obtain ⟨hmade, htrigger, howed⟩ | ⟨hmade, happly, hmark, htrigger⟩ := hmeets
    · have hs1 : s1 = { s with mixer := s.answeredMixer } := congrArg (fun x => { s with mixer := x }) (if_pos htrigger)
      rw [hs1, fireAtSample_of_now hbegun hmade harmed hr htrigger howed, ← controllerSpanStart_of_now hmade harmed hr htrigger howed]
      exact ⟨rfl, makeSample_of_now hmade harmed hr htrigger howed⟩
    · have hnot : r.trigger ≠ .now := by obtain h | h := htrigger <;> rw [h] <;> exact Trigger.noConfusion
      have hs1 : s1 = { s with mixer := { s.answeredMixer with earlyMark := some ⟨r.target.other, song⟩ } } :=
        congrArg (fun x => { s with mixer := x }) (if_neg hnot)
      rw [hs1, fireAtSample_of_mark harmed hr hearly happly hmark htrigger hbegun hmade, ← keepMark_firePendingSwitch _ harmed hr]
      exact ⟨rfl, makeSample_of_mark harmed hr hearly happly hmark htrigger⟩
  obtain ⟨hfire, hsame⟩ := hcomes
  have hmade : s.clock.made < 32 := hmeets.elim (fun h => by omega) fun h => h.1
  have hexec : exec .pendingSwitchFire s = .next (State.settleLines (firePendingSwitch r s1)) := by
    rw [← hfire]
    exact whileRunning_of_running hrun
  have hframe := frame_firePendingSwitch r s1
  refine ⟨hexec.trans (congrArg (fun u => Host.Outcome.next (State.settleLines u)) ?_),
    fun t => exec_programSample_after hrun hbegun hmade hexec ⟨hframe.run, hframe.clock, hframe.lines⟩ hsame⟩
  rw [← hposition]
  exact firePendingSwitch_eq (s := s1) harmed hr

end Sys2Proof.Machine

/-! ### The faults of a window in the rules' own terms (R23 to R28, R30) -/

namespace Sys2Proof.Machine

/-- The report's data span is the one that the window takes. -/
theorem windowReport_dataSpan (s : State) (p : Port) : (s.windowReport p).dataSpan = s.taken p .data := by
  show (match s.outcome p with
    | .valid f => if f.kind = .data then some f else none
    | _ => none) = s.taken p .data
  unfold State.taken
  cases s.outcome p <;> rfl

theorem signed40_pos_iff (x : Position) : 0 < signed40 x ↔ 0 < x.toNat ∧ x.toNat ≤ 2 ^ 39 := by
  have hlt := x.isLt
  unfold signed40
  split <;> omega

/-- SEQUENCE is raised by a used span that does not bear the expected number, in a port LOCKED before the window (R24). -/
theorem windowReport_sequence (s : State) (p : Port) : raisesSequence (s.windowReport p) = s.raises p .sequence := by
  have hreport : raisesSequence (s.windowReport p) = true ↔ (s.windowReport p).sequence = .mismatched ∧ (usedSpan (s.outcome p)).isSome := by
    show (match s.outcome p with
      | .valid f => (f.kind == .data || f.kind == .idle) && (s.windowReport p).sequence == .mismatched
      | _ => false) = true ↔ _
    unfold usedSpan
    cases s.outcome p with
    | valid f => simp [and_comm]
    | _ => simp
  have hrule : s.raises p .sequence = true
      ↔ (s.ports.get p).rx = .locked ∧ ∃ f ∈ usedSpan (s.outcome p), f.number ≠ (s.ports.get p).expected + 1 := by
    rw [usedSpan_outcome]
    unfold State.raises
    cases s.taken p .data <;> cases s.taken p .idle <;> simp
  rw [Bool.eq_iff_iff, hreport, hrule]
  by_cases hlocked : (s.ports.get p).rx = .locked
  · rcases hused : usedSpan (s.outcome p) with - | f
    · simp
    · have hafter : (s.portAfterWindow p).rx = .locked := by
        cases ho : s.outcome p with
        | valid g =>
          rw [ho] at hused
          unfold usedSpan at hused
          exact portAfterWindow_locked hlocked ho (by by_contra hne; simp [hne] at hused)
        | _ => rw [ho] at hused; cases hused
      have hmis := (expectedAfter_locked (s.outcome p) (s.ports.get p).expected).2
      rw [hused] at hmis
      have hseq : (s.windowReport p).sequence = (expectedAfter .locked .locked (s.outcome p) (s.ports.get p).expected).2 := by
        show (expectedAfter (s.ports.get p).rx (s.portAfterWindow p).rx _ _).2 = _
        rw [hlocked, hafter]
      rw [hseq, hmis]
      simp [hlocked]
  · have hseq : (s.windowReport p).sequence ≠ .mismatched := expectedAfter_not_mismatched (fun h => hlocked h.1) _ _
    simp [hseq, hlocked]

/-- A window reports RUN clear when it takes an IDLE span or a DATA span with RUN clear (R26). -/
theorem windowReport_stopped (s : State) (p : Port) :
    (s.windowReport p).reportsStopped = ((s.taken p .idle).isSome || (s.taken p .data).any fun f => !f.run) := by
  show (match s.outcome p with
    | .valid f => f.kind == SpanKind.idle || (f.kind == SpanKind.data && !f.run)
    | _ => false) = _
  unfold State.taken
  cases s.outcome p with
  | valid f => rcases f with ⟨kind⟩; cases kind <;> rfl
  | _ => rfl

/-- The signed distance that STOPPED is judged by, as an integer modulo 2^40 (R26). -/
theorem runsAhead_iff (e here : Position) (grace : Nat) :
    0 < signed40 (e - (here + BitVec.ofNat 40 (32 * grace)))
      ↔ 0 < ((e.toNat : Int) - here.toNat - 32 * grace) % 2 ^ 40 ∧ ((e.toNat : Int) - here.toNat - 32 * grace) % 2 ^ 40 ≤ 2 ^ 39 := by
  have hdist : ((e - (here + BitVec.ofNat 40 (32 * grace))).toNat : Int) = ((e.toNat : Int) - here.toNat - 32 * grace) % 2 ^ 40 := by
    rw [BitVec.toNat_sub, BitVec.toNat_add, BitVec.toNat_ofNat]
    omega
  rw [signed40_pos_iff]
  omega

/-- Where a running span leads, as a number (R27). -/
theorem playedOn_toNat (position : Position) (since w : WindowIndex) :
    (playedOn position since w).toNat = (position.toNat + 32 * (w - since).toNat) % 2 ^ 40 := by
  unfold playedOn windowTime
  rw [BitVec.toNat_add, BitVec.toNat_ofNat, Nat.add_mod_mod]

/-- A list of samples differs from the pilot pattern where one of its 32 does (R28). -/
theorem pilotPattern_ne (n : SpanNumber) (x : Nat → Sample) :
    ((List.range Config.spanLength).map x != pilotPattern n) = (List.range 32).any fun j => (x j).toNat != 32 * n.toNat + j := by
  have hpattern : ∀ j ∈ List.range 32, ((x j).toNat = 32 * n.toNat + j ↔ x j = BitVec.ofNat 24 (32 * n.toNat + j)) := by
    intro j hj
    have hn := n.isLt
    have hj := List.mem_range.mp hj
    rw [← BitVec.toNat_inj, BitVec.toNat_ofNat, Nat.mod_eq_of_lt (by omega)]
  rw [Bool.eq_iff_iff, bne_iff_ne, List.any_eq_true, pilotPattern, Ne, List.map_inj_left]
  push Not
  simp only [bne_iff_ne]
  exact exists_congr fun j => and_congr_right fun hj => not_congr (hpattern j hj).symm

/-- A window raises of its report the faults that the rules name (R23 to R28). -/
theorem raisesFault_report (s : State) (p : Port) (k : FaultKind) :
    raisesFault (s.windowReport p) (s.judged p) (s.health.get p.other) s.tables.live.stopGrace k = s.raises p k := by
  have hdata := windowReport_dataSpan s p
  cases k with
  | absent =>
    show (s.outcome p == .absent) = (s.ports.get p).store.isEmpty
    rw [Bool.eq_iff_iff, beq_iff_eq, outcome_absent_iff, List.isEmpty_iff]
  | check =>
    show (match s.outcome p with
      | .check _ => true
      | _ => false) = s.raises p .check
    unfold State.raises
    cases s.outcome p <;> rfl
  | sequence => exact windowReport_sequence s p
  | stall =>
    show raisesStall (s.windowReport p) (s.judged p) = s.raises p .stall
    cases hspan : s.taken p .data <;> cases hlast : (s.judged p).lastData <;>
      simp [raisesStall, State.raises, hdata, hspan, hlast]
  | stopped =>
    show raisesStopped (s.windowReport p) (s.judged p) (s.health.get p.other) s.tables.live.stopGrace = s.raises p .stopped
    unfold raisesStopped State.raises
    rw [windowReport_stopped]
    dsimp only
    cases (s.judged p).lastRunning with
    | none => rfl
    | some here =>
      cases (s.health.get p.other).lastData with
      | none => rfl
      | some e =>
        dsimp only
        rw [decide_eq_decide.mpr (runsAhead_iff e.position here s.tables.live.stopGrace)]
  | jump =>
    show raisesJump (s.windowReport p) (s.judged p) = s.raises p .jump
    unfold raisesJump State.raises
    rw [hdata]
    dsimp only
    cases s.taken p .data with
    | none => rfl
    | some f =>
      cases (s.judged p).lastData with
      | none => rfl
      | some e =>
        refine congrArg (f.run && e.run && ·) ?_
        rw [← playedOn_toNat, Bool.eq_iff_iff, bne_iff_ne, decide_eq_true_iff, Ne, Ne, BitVec.toNat_inj]
        rfl
  | pilot =>
    show raisesPilot (s.windowReport p) = s.raises p .pilot
    have hpilot : (s.windowReport p).pilot = pilotSamples (s.tables.live.pilot p) (s.outcome p) := rfl
    unfold raisesPilot State.raises
    rw [hdata, hpilot]
    unfold State.taken pilotSamples
    cases s.outcome p with
    | valid f =>
      by_cases hkind : f.kind = .data
      · cases s.tables.live.pilot p with
        | none => simp [hkind]
        | some c => simp only [hkind, if_true]; exact pilotPattern_ne _ _
      · simp [hkind]
    | _ => rfl

/-- The sum over the raised faults is the sum of R30 (R30). -/
theorem sum_map_filter_weight (t : Tables) (raised : FaultKind → Bool) (ks : List FaultKind) :
    faultSum t (ks.filter raised) = (ks.map fun k => if raised k = true then t.weight k else 0).sum := by
  unfold faultSum
  induction ks with
  | nil => rfl
  | cons k ks ih => by_cases hk : raised k = true <;> simp [hk, ih]

theorem faultSum_report (s : State) (p : Port) :
    faultSum s.tables.live (raisedFaults (s.windowReport p) (s.judged p) (s.health.get p.other) s.tables.live.stopGrace)
      = s.weightSum p := by
  unfold raisedFaults State.weightSum
  rw [sum_map_filter_weight]
  simp only [raisesFault_report]

end Sys2Proof.Machine

/-! ### The hold-off count and the revert record (R75, R76) -/

namespace Sys2Proof.Machine

/-! #### What a verdict change leaves (R35, R62 to R67) -/

/-- An abandoned opening releases no adoption that does not wait for it (R63, R105). -/
theorem abandonOpening_tables (x : Port) (s : State) (hd : s.applyDeferred = false) : (abandonOpening x s).tables = s.tables := by
  have hnotice : ∀ u : State, (abandonNotice u).tables = u.tables := fun u => by
    refine ite_of (P := fun v : State => v.tables = u.tables) ?_ rfl
    unfold applyRecentre
    dsimp only
    split
    · rfl
    · exact ite_of (P := fun v : State => v.tables = u.tables) rfl rfl
  have hreleased : ∀ u : State, u.tables = s.tables → (recordAdoption u (releaseDeferred u)).tables = s.tables := by
    intro u hu
    have hstands : releaseDeferred u = u := if_neg (by unfold State.applyDeferred at hd ⊢; rw [hu, hd]; exact Bool.false_ne_true)
    rw [hstands]
    exact ite_of (P := fun v : State => v.tables = s.tables) hu hu
  unfold abandonOpening
  rw [(within_openingRechoice 12 _ _).ask.tables]
  exact hreleased _ (hnotice _)

/-- A verdict change leaves table memory when no adoption is DEFERRED (R105). -/
theorem respondVerdict_tables (p : Port) (old new : Verdict) (s : State) (hd : s.applyDeferred = false) :
    (respondVerdict p old new s).tables = s.tables := by
  by_cases habandon : s.ctrl.mode = .opening p ∧ new = .failed
  · obtain ⟨hmode, rfl⟩ := habandon
    unfold respondVerdict
    rw [hmode]
    dsimp only
    rw [if_pos ⟨rfl, rfl⟩]
    exact abandonOpening_tables p s hd
  · exact (within_respondVerdict fun hmode hnew => habandon ⟨hmode, hnew⟩).ask.tables

theorem takeVerdictChange_tables (p : Port) (old new : Verdict) (s : State) (hd : s.applyDeferred = false) :
    (takeVerdictChange p old new s).tables = s.tables := by
  refine ite_of (P := fun v : State => v.tables = s.tables) ?_ (respondVerdict_tables p old new s hd)
  rw [(within_resetHoldoff _).ask.tables]
  exact respondVerdict_tables p old new s hd

theorem handVerdict_tables (p : Port) (h : HealthRecord) (s : State) (hd : s.applyDeferred = false) :
    (handVerdict p h s).tables = s.tables :=
  ite_of (P := fun v : State => v.tables = s.tables) rfl (takeVerdictChange_tables p _ _ _ hd)

/-- What the controller does when port p becomes GOOD (R62, R65 to R67). -/
theorem respondVerdict_good (p : Port) (old : Verdict) (s : State) :
    respondVerdict p old .good s = match s.ctrl.mode with
      | .idle => if old.ready = true then s else openingChoice p s
      | .opening _ => s
      | .on x => if p = x then clearDegraded s
          else if s.ctrl.degraded = true ∧ s.ctrl.auto = true then resolveDegraded p s else s
      | .fade x => if p = x then s else clearDegraded s := by
  unfold respondVerdict
  cases s.ctrl.mode with
  | idle => cases old.ready <;> simp [Verdict.ready]
  | opening x => simp
  | on x => simp [Verdict.ready]
  | fade x => simp

/-- A port that becomes GOOD withdraws no scheduled start (R62, R65 to R67). -/
theorem respondVerdict_good_scheduled (p : Port) (old : Verdict) (s : State) (h : s.ctrl.scheduled ≠ none) :
    (respondVerdict p old .good s).ctrl.scheduled ≠ none := by
  obtain ⟨st, hst⟩ := Option.ne_none_iff_exists'.mp h
  rw [respondVerdict_good]
  split
  · refine ite_of (P := fun v : State => v.ctrl.scheduled ≠ none) h ?_
    unfold openingChoice
    rw [hst]
    exact ite_of (P := fun v : State => v.ctrl.scheduled ≠ none) (Option.some_ne_none _) h
  · exact h
  · refine ite_of (P := fun v : State => v.ctrl.scheduled ≠ none) h ?_
    rw [show resolveDegraded p s = s from if_pos (by rw [hst]; rfl)]
    exact ite_of (P := fun v : State => v.ctrl.scheduled ≠ none) h h
  · exact ite_of (P := fun v : State => v.ctrl.scheduled ≠ none) h h

/-! #### The end of the hold-off count (R75) -/

/-- The hold-off count is 0 and no revert record waits. -/
abbrev State.HoldoffOver (s : State) : Prop :=
  s.ctrl.holdoff = 0 ∧ ∀ r ∈ s.ctrl.pendingSwitch, r.cause ≠ .revert

theorem resetHoldoff_over (s : State) : (resetHoldoff s).HoldoffOver := by
  unfold resetHoldoff cancelRevert
  split
  · refine ⟨?_, fun r hr => ?_⟩
    · unfold cancelPendingSwitch
      split <;> rfl
    · rw [cancelPendingSwitch_none] at hr
      cases hr
  · next hnone =>
    refine ⟨rfl, ?_⟩
    rintro ⟨target, trigger, cause⟩ hr rfl
    exact hnone target trigger hr

theorem resetHoldoff_scheduled (s : State) : (resetHoldoff s).ctrl.scheduled = s.ctrl.scheduled := by
  unfold resetHoldoff cancelRevert
  split
  · exact cancelPendingSwitch_scheduled _
  · rfl

/-- A verdict of the preferred port that leaves GOOD ends the count (R75). -/
theorem handVerdict_over {p : Port} {h : HealthRecord} {s : State} (hp : p = s.preferred) (hd : s.applyDeferred = false)
    (hold : (s.health.get p).verdict = .good) (hnew : h.verdict ≠ .good) : (handVerdict p h s).HoldoffOver := by
  have htables := respondVerdict_tables p (s.health.get p).verdict h.verdict
    (offerEvent (.verdict p h.verdict h.cause h.score) (s.setHealth p h)) hd
  have hpreferred := hp.trans (congrArg (fun t : TableMemory => t.live.preferred) htables).symm
  unfold handVerdict takeVerdictChange
  dsimp only
  rw [if_neg fun heq => hnew (heq.trans hold), if_pos ⟨hpreferred, hold⟩]
  exact resetHoldoff_over _

/-- A GOOD verdict withdraws no scheduled start. -/
theorem handVerdict_good_scheduled {p : Port} {h : HealthRecord} {s : State} (hgood : h.verdict = .good)
    (hs : s.ctrl.scheduled ≠ none) : (handVerdict p h s).ctrl.scheduled ≠ none := by
  refine ite_of (P := fun v : State => v.ctrl.scheduled ≠ none) hs ?_
  rw [hgood]
  have hstands := respondVerdict_good_scheduled p (s.health.get p).verdict
    (offerEvent (.verdict p .good h.cause h.score) (s.setHealth p h)) hs
  exact ite_of (P := fun v : State => v.ctrl.scheduled ≠ none) ((resetHoldoff_scheduled _).trans_ne hstands) hstands

/-- A GOOD verdict leaves the controller's mode. -/
theorem handVerdict_good_mode {p : Port} {h : HealthRecord} {s : State} (hgood : h.verdict = .good) :
    (handVerdict p h s).ctrl.mode = s.ctrl.mode :=
  (within_handVerdict fun _ hfailed => by rw [hgood] at hfailed; cases hfailed).ask.mode

/-- An evaluated window of the preferred port ends the count when a revert condition is missing or its verdict is not GOOD (R75). -/
theorem evaluateWindow_over {p : Port} {r : WindowReport} {s : State} (hp : p = s.preferred) (hd : s.applyDeferred = false)
    (h : s.ctrl.mode ≠ .on p.other ∨ s.tables.live.revertAtMark = false ∨ s.ctrl.scheduled ≠ none
      ∨ (evaluated s.live r (s.health.get p) (s.health.get p.other)).verdict ≠ .good) :
    (evaluateWindow p r s).HoldoffOver := by
  unfold evaluateWindow takeNotice
  generalize evaluated s.live r (s.health.get p) (s.health.get p.other) = e at h ⊢
  have htables := handVerdict_tables p e s hd
  have hpreferred : p = (handVerdict p e s).preferred := by
    unfold State.preferred State.live
    rw [htables]
    exact hp
  dsimp only
  rw [if_pos hpreferred, if_neg ?_]
  · exact resetHoldoff_over _
  · rintro ⟨hconditions, hgood⟩
    unfold revertConditions State.live at hconditions
    rw [← hpreferred, htables, handVerdict_good_mode hgood, Bool.and_eq_true, Bool.and_eq_true, decide_eq_true_iff,
      Option.isNone_iff_eq_none] at hconditions
    obtain ⟨⟨hmode, hrevert⟩, hnone⟩ := hconditions
    rcases h with h | h | h | h
    · exact h hmode
    · rw [h] at hrevert; cases hrevert
    · exact handVerdict_good_scheduled hgood h hnone
    · exact h hgood

/-! #### The window of the preferred port -/

/-- The state that port p's next LOCKED window is evaluated in: its receiver's change made, a lock entry's values in place (R21, R22). -/
def State.weighed (s : State) (p : Port) : State :=
  (s.transitioned p).setHealth p (s.judged p)

theorem transitioned_health (s : State) (p : Port) : (s.transitioned p).health = s.health := by rw [transitioned_eq]

theorem transitioned_tables (s : State) (p : Port) : (s.transitioned p).tables = s.tables := by rw [transitioned_eq]

theorem weighed_ctrl (s : State) (p : Port) : (s.weighed p).ctrl = s.ctrl := transitioned_ctrl s p

theorem weighed_tables (s : State) (p : Port) : (s.weighed p).tables = s.tables := transitioned_tables s p

theorem weighed_preferred (s : State) (p : Port) : (s.weighed p).preferred = s.preferred :=
  congrArg (fun t : TableMemory => t.live.preferred) (weighed_tables s p)

theorem weighed_own (s : State) (p : Port) : (s.weighed p).health.get p = s.judged p := PerPort.get_set_self _ _ _

theorem weighed_other (s : State) (p : Port) : (s.weighed p).health.get p.other = s.health.get p.other := by
  rw [← transitioned_health s p]
  exact PerPort.get_set_other _ _ _

/-- The record of a LOCKED window as it is evaluated in that state. -/
theorem weighed_evaluated (s : State) (p : Port) :
    evaluated (s.weighed p).live (s.windowReport p) ((s.weighed p).health.get p) ((s.weighed p).health.get p.other)
      = evaluated s.live (s.windowReport p) (s.judged p) (s.health.get p.other) := by
  unfold State.live
  rw [weighed_tables, weighed_own, weighed_other]

/-- A window that leaves the port LOCKED is evaluated, against the values of a lock entry if it is one (R21, R22). -/
theorem examined_of_locked {s : State} {p : Port} (h : (s.portAfterWindow p).rx = .locked) :
    s.examined p = evaluateWindow p (s.windowReport p) (s.weighed p) := by
  have hrx : (s.windowReport p).rx = .locked := h
  have hchanged : (s.windowReport p).changed = ((s.ports.get p).rx != (s.portAfterWindow p).rx) := rfl
  unfold State.examined State.weighed State.judged
  rw [takeHealthReport_of_locked hrx, hchanged, h, transitioned_health]
  by_cases hbefore : (s.ports.get p).rx = .locked
  · rw [hbefore, if_neg (by decide), if_pos rfl, ← transitioned_health s p]
    exact congrArg _ (by unfold State.setHealth; rw [PerPort.set_get])
  · rw [if_pos (bne_iff_ne.mpr hbefore), if_neg hbefore]
    rfl

/-- A clean window of a GOOD port leaves it GOOD while its score stays below both thresholds (R30, R32). -/
theorem evaluated_verdict_good {t : Tables} {r : WindowReport} {own other : HealthRecord} (hgood : own.verdict = .good)
    (hclean : faultSum t (raisedFaults r own other t.stopGrace) = 0) (hwarn : own.score - t.decay < t.tWarn)
    (hfail : own.score - t.decay < t.tFail) : (evaluated t r own other).verdict = .good := by
  unfold evaluated verdictAfter scoreAfter
  dsimp only
  rw [hclean, hgood]
  simp [Nat.not_le.mpr hwarn, Nat.not_le.mpr hfail]

/-- A GOOD notice of the preferred port under the revert conditions counts, and creates the revert record when it is due (R76). -/
theorem takeNotice_good_ctrl {p : Port} {s : State} (hp : p = s.preferred) (hconditions : revertConditions s = true)
    (hnone : s.ctrl.pendingSwitch = none) :
    (takeNotice p .good s).ctrl = { s.ctrl with
      holdoff := min 65535 (s.ctrl.holdoff + 1)
      pendingSwitch := if s.tables.live.holdoff ≤ min 65535 (s.ctrl.holdoff + 1) then some ⟨p, .atMark, .revert⟩ else none } := by
  unfold takeNotice
  rw [if_pos hp, if_pos ⟨hconditions, rfl⟩]
  have hdue : revertDue { s with ctrl := { s.ctrl with holdoff := satAdd 65535 s.ctrl.holdoff 1 } } = true
      ↔ s.tables.live.holdoff ≤ min 65535 (s.ctrl.holdoff + 1) := by
    unfold revertDue
    rw [Bool.and_eq_true, decide_eq_true_iff]
    exact and_iff_left (by rw [hnone]; rfl)
  by_cases h : s.tables.live.holdoff ≤ min 65535 (s.ctrl.holdoff + 1)
  · rw [if_pos h, if_pos (hdue.mpr h), createPendingSwitch_eq]
    rfl
  · rw [if_neg h, if_neg (mt hdue.mp h), ← hnone]
    rfl

/-- A verdict that stands leaves the window notice only (R35, R36). -/
theorem evaluateWindow_of_standing {p : Port} {r : WindowReport} {s : State} {v : Verdict}
    (hnew : (evaluated s.live r (s.health.get p) (s.health.get p.other)).verdict = v) (hold : (s.health.get p).verdict = v) :
    evaluateWindow p r s = takeNotice p v (s.setHealth p (evaluated s.live r (s.health.get p) (s.health.get p.other))) := by
  unfold evaluateWindow handVerdict
  dsimp only
  rw [if_pos (hnew.trans hold.symm), hnew]

/-- A GOOD window of the preferred port that stays GOOD counts under the revert conditions (R75, R76). -/
theorem evaluateWindow_ctrl_of_counted {p : Port} {r : WindowReport} {s : State} (hp : p = s.preferred)
    (hmode : s.ctrl.mode = .on p.other) (hrevert : s.tables.live.revertAtMark = true) (hsched : s.ctrl.scheduled = none)
    (hnone : s.ctrl.pendingSwitch = none) (hold : (s.health.get p).verdict = .good)
    (hnew : (evaluated s.live r (s.health.get p) (s.health.get p.other)).verdict = .good) :
    (evaluateWindow p r s).ctrl = { s.ctrl with
      holdoff := min 65535 (s.ctrl.holdoff + 1)
      pendingSwitch := if s.tables.live.holdoff ≤ min 65535 (s.ctrl.holdoff + 1) then some ⟨p, .atMark, .revert⟩ else none } := by
  have hconditions : revertConditions s = true := by
    unfold revertConditions State.live
    rw [← hp, hmode, hrevert, hsched]
    simp
  rw [evaluateWindow_of_standing hnew hold]
  exact takeNotice_good_ctrl (s := s.setHealth p _) hp hconditions hnone

/-- The window of R76: what the controller is left with. -/
theorem closeWindow_ctrl_of_counted {s : State} {p : Port} {f : ForwardSpan} (hp : p = s.preferred)
    (hmode : s.ctrl.mode = .on p.other) (hrevert : s.tables.live.revertAtMark = true) (hsched : s.ctrl.scheduled = none)
    (hnone : s.ctrl.pendingSwitch = none) (hlocked : (s.ports.get p).rx = .locked) (hgood : (s.health.get p).verdict = .good)
    (ho : s.outcome p = .valid f) (hkind : f.kind = .data ∨ f.kind = .idle) (hclean : s.weightSum p = 0)
    (hwarn : (s.health.get p).score - s.tables.live.decay < s.tables.live.tWarn)
    (hfail : (s.health.get p).score - s.tables.live.decay < s.tables.live.tFail) :
    (closeWindow p s).ctrl = { s.ctrl with
      holdoff := min 65535 (s.ctrl.holdoff + 1)
      pendingSwitch := if s.tables.live.holdoff ≤ min 65535 (s.ctrl.holdoff + 1) then some ⟨p, .atMark, .revert⟩ else none } := by
  have hjudged : s.judged p = s.health.get p := if_pos hlocked
  have hverdict : (evaluated s.live (s.windowReport p) (s.judged p) (s.health.get p.other)).verdict = .good := by
    refine evaluated_verdict_good ?_ ((faultSum_report s p).trans hclean) ?_ ?_ <;> rw [hjudged] <;> assumption
  have hcounted := evaluateWindow_ctrl_of_counted (p := p) (r := s.windowReport p) (s := s.weighed p)
  rw [weighed_evaluated, weighed_ctrl, weighed_tables, weighed_own, hjudged] at hcounted
  rw [closeWindow_ctrl, examined_of_locked (portAfterWindow_locked hlocked ho hkind)]
  exact hcounted (hp.trans (weighed_preferred s p).symm) hmode hrevert hsched hnone hgood (hjudged ▸ hverdict)

/-- REVERT is the next window close of the preferred port, if a revert record comes of it, and else the state as it stands
(R76, log 3). -/
theorem exec_revert {s : State} (hdue : s.WindowDue s.preferred) :
    exec .revert s = .next (if createsRevert s (closeWindow s.preferred s) = true then runEngine (closeWindow s.preferred s)
      else s).settleLines := by
  obtain ⟨hrun, hbegun, hmade, hclosed, -⟩ := hdue
  have hexec := whileRunning_of_running (f := fun s => closeIf s.preferred createsRevert s) hrun
  have hclose : closeIf s.preferred createsRevert s = if createsRevert s (closeWindow s.preferred s) = true then
      runEngine (closeWindow s.preferred s) else s := by
    unfold closeIf
    rw [atWindow_of_open hbegun hclosed hmade]
  exact hexec.trans (congrArg (fun t => Host.Outcome.next (State.settleLines t)) hclose)

theorem applyDeferred_of_tables {s t : State} (h : t.tables = s.tables) : t.applyDeferred = s.applyDeferred := by
  unfold State.applyDeferred
  rw [h]

/-- What follows the health report of a window leaves the health records (R5). -/
theorem closeWindow_health_examined (p : Port) (s : State) : (closeWindow p s).health = (s.examined p).health := by
  unfold State.examined
  rw [closeWindow_health, takeHealthReport_health, transitioned_health, ← outcome_eq]
  unfold State.live
  rw [transitioned_tables]
  rfl

/-- A LOCKED window of the preferred port that finds a condition missing ends the count (R75). -/
theorem examined_over_of_locked {s : State} {p : Port} (hp : p = s.preferred) (hd : s.applyDeferred = false)
    (hlocked : (s.portAfterWindow p).rx = .locked)
    (h : s.ctrl.mode ≠ .on p.other ∨ s.tables.live.revertAtMark = false ∨ s.ctrl.scheduled ≠ none
      ∨ ((closeWindow p s).health.get p).verdict ≠ .good) :
    (s.examined p).HoldoffOver := by
  rw [closeWindow_health_examined, examined_of_locked hlocked, evaluateWindow_health, PerPort.get_set_self,
    ← weighed_ctrl s p, ← weighed_tables s p] at h
  rw [examined_of_locked hlocked]
  exact evaluateWindow_over (hp.trans (weighed_preferred s p).symm) ((applyDeferred_of_tables (weighed_tables s p)).trans hd) h

/-- A forced failure of the preferred port, GOOD before, ends the count (R34, R75). -/
theorem examined_over_of_unlocked {s : State} {p : Port} (hp : p = s.preferred) (hd : s.applyDeferred = false)
    (hlocked : (s.portAfterWindow p).rx ≠ .locked) (hold : (s.health.get p).verdict = .good)
    (hnew : ((closeWindow p s).health.get p).verdict ≠ .good) : (s.examined p).HoldoffOver := by
  have hreport := takeHealthReport_of_unlocked (p := p) (r := s.windowReport p) (s := s.transitioned p) hlocked
  rw [closeWindow_health_examined] at hnew
  unfold State.examined at hnew ⊢
  rw [hreport] at hnew ⊢
  split
  · refine handVerdict_over ?_ ((applyDeferred_of_tables (transitioned_tables s p)).trans hd) ?_ (by simp [forcedFailure])
    · exact hp.trans (congrArg (fun t : TableMemory => t.live.preferred) (transitioned_tables s p)).symm
    · rw [transitioned_health]; exact hold
  · next hstands =>
    rw [if_neg hstands, transitioned_health] at hnew
    exact absurd hold hnew

/-- Settles O33: the window of R76 as the controller is left by it, and REVERT as that window; then the two ways the count ends, a LOCKED
window evaluated and a forced failure. -/
theorem revertWaitsForHoldoff : Obligations.RevertWaitsForHoldoff := by
  unfold Obligations.RevertWaitsForHoldoff
  refine ⟨?_, ?_⟩
  · intro s f hdue hmode hrevert hsched hnone hlocked hgood ho hkind hlane hclean hwarn hfail count due
    have hquiet : s.LaneQuiet s.preferred := fun g hg => by
      rw [ho] at hg
      cases hg
      exact hlane
    have hctrl := closeWindow_ctrl_of_counted rfl hmode hrevert hsched hnone hlocked hgood ho hkind hclean hwarn hfail
    have hcreates : createsRevert s (closeWindow s.preferred s) = true ↔ due := by
      unfold createsRevert
      rw [hctrl, hnone]
      by_cases h : s.tables.live.holdoff ≤ min 65535 (s.ctrl.holdoff + 1)
      · rw [if_pos h]
        exact iff_of_true rfl h
      · rw [if_neg h]
        exact iff_of_false Bool.false_ne_true h
    refine ⟨⟨_, exec_windowClose hdue, ?_⟩, fun h => ?_, fun h => ?_⟩
    · rw [settleLines_ctrl, runEngine_closeWindow_quiet hdue hquiet, hctrl]
    · rw [exec_revert hdue, if_pos (hcreates.mpr h), exec_windowClose hdue]
    · rw [exec_revert hdue, if_neg (mt hcreates.mp h)]
  · intro s hdue hquiet hd old
    refine ⟨_, exec_windowClose hdue, ?_⟩
    rw [runEngine_closeWindow_quiet hdue hquiet]
    intro new h
    have hrx : (((closeWindow s.preferred s).settleLines).ports.get s.preferred).rx = (s.portAfterWindow s.preferred).rx := by
      have hreceived := (windowClose_received s s.preferred).rx
      rwa [runEngine_closeWindow_quiet hdue hquiet] at hreceived
    have hover : (s.examined s.preferred).HoldoffOver := by
      by_cases hlocked : (s.portAfterWindow s.preferred).rx = .locked
      · exact examined_over_of_locked rfl hd hlocked (h.elim (fun hcond => hcond.2) fun hleft => .inr (.inr (.inr hleft.2)))
      · obtain ⟨hold, hnew⟩ := h.resolve_left fun hcond => hlocked (hrx.symm.trans hcond.1)
        exact examined_over_of_unlocked rfl hd hlocked hold hnew
    rw [settleLines_ctrl, closeWindow_ctrl]
    exact hover

end Sys2Proof.Machine

/-! ### The steps of a fade end, whole (R48, R61, R105, R106) -/

namespace Sys2Proof.Machine

/-- The state with these five parts, the ones that a fade end may touch. -/
def State.withParts (s : State) (c : Controller) (x : Mixer) (a : Alignment) (m : TableMemory) (e : EventQueue) : State :=
  { s with ctrl := c, mixer := x, align := a, tables := m, events := e }

section

variable (s : State) (c : Controller) (x : Mixer) (a : Alignment) (m : TableMemory) (e : EventQueue)

@[simp] theorem withParts_ctrl : (s.withParts c x a m e).ctrl = c := rfl

@[simp] theorem withParts_mixer : (s.withParts c x a m e).mixer = x := rfl

@[simp] theorem withParts_align : (s.withParts c x a m e).align = a := rfl

@[simp] theorem withParts_tables : (s.withParts c x a m e).tables = m := rfl

@[simp] theorem withParts_events : (s.withParts c x a m e).events = e := rfl

@[simp] theorem withParts_withParts (c' : Controller) (x' : Mixer) (a' : Alignment) (m' : TableMemory) (e' : EventQueue) :
    (s.withParts c x a m e).withParts c' x' a' m' e' = s.withParts c' x' a' m' e' := rfl

/-- Records offered behind others follow them in the queue (R145). -/
@[simp] theorem withParts_recording (xs ys : List EventBody) :
    (s.withParts c x a m (s.recording xs)).recording ys = s.recording (xs ++ ys) :=
  (recording_append s xs ys).symm

end

/-! #### The end notice (R45, R46, R48) -/

/-- The skew that an end notice applies, if one was deferred (R48). -/
def Alignment.deferredSkew (a : Alignment) : Option Int :=
  if a.deferred then a.accepted else none

/-- The delay of the port off air that its skew asks for, y being on air (R45). -/
def Alignment.rawOffAir (a : Alignment) (y : Port) (k : Int) : Int :=
  (a.delays.get y : Int) - (if y = .a then k else -k)

/-- The alignment unit after the end notice of a transition to port y (R45, R46, R48). -/
def Alignment.ended (a : Alignment) (y : Port) : Alignment :=
  { a with
    transition := false, deferred := false,
    delays := match a.deferredSkew with
      | none => a.delays
      | some k => a.delays.set y.other (max 64 (min 2016 (a.rawOffAir y k))).toNat,
    clamp := match a.deferredSkew with
      | none => a.clamp
      | some k => decide (a.rawOffAir y k < 64 ∨ 2016 < a.rawOffAir y k) }

/-- The record of an end notice whose skew is out of range (R46, R144). -/
def Alignment.endRecords (a : Alignment) (y : Port) : List EventBody :=
  match a.deferredSkew with
  | none => []
  | some k => if a.rawOffAir y k < 64 ∨ 2016 < a.rawOffAir y k then [.outOfRange (max (-(2 ^ 31)) (min (2 ^ 31 - 1) k))] else []

/-- A delay is bound where it lies outside the range (R46). -/
theorem clampDelay_ne_iff (x : Int) : (clampDelay x : Int) ≠ x ↔ x < 64 ∨ 2016 < x := by
  rw [clampDelay_eq]
  omega

/-- The off-air update of port y's other port, as a change of the alignment unit and a record (R45, R46). -/
theorem applyOffAir_of_on {y : Port} {s : State} {k : Int} (hmode : s.ctrl.mode = .on y) (hk : s.align.accepted = some k) :
    applyOffAir s = s.withParts s.ctrl s.mixer
      { s.align with
        delays := s.align.delays.set y.other (max 64 (min 2016 (s.align.rawOffAir y k))).toNat
        clamp := decide (s.align.rawOffAir y k < 64 ∨ 2016 < s.align.rawOffAir y k) }
      s.tables
      (s.recording (if s.align.rawOffAir y k < 64 ∨ 2016 < s.align.rawOffAir y k then
        [.outOfRange (max (-(2 ^ 31)) (min (2 ^ 31 - 1) k))] else [])) := by
  have hon : s.onPort = y := by unfold State.onPort; rw [hmode]
  have hraw : (s.align.delays.get y : Int) - skewFrom y k = s.align.rawOffAir y k := by
    unfold skewFrom Alignment.rawOffAir
    cases y <;> rfl
  have hbound : decide ((clampDelay (s.align.rawOffAir y k) : Int) ≠ s.align.rawOffAir y k)
      = decide (s.align.rawOffAir y k < 64 ∨ 2016 < s.align.rawOffAir y k) := decide_eq_decide.mpr (clampDelay_ne_iff _)
  have hpair : s.offAirNow k = ⟨s.align.delays.get y, clampDelay (s.align.rawOffAir y k),
      decide (s.align.rawOffAir y k < 64 ∨ 2016 < s.align.rawOffAir y k)⟩ := by
    unfold State.offAirNow offAirPair
    rw [hon, hraw]
    exact congrArg _ hbound
  have happlies : applyOffAir s = recordClamp (s.offAirNow k).bound k (setDelays y (s.offAirNow k) s) := by
    unfold applyOffAir
    rw [hk, hon]
  rw [happlies, hpair, recordClamp_eq]
  unfold setDelays clampRecord
  dsimp only
  rw [PerPort.set_get]
  simp only [decide_eq_true_eq]
  rfl

/-- The end notice of a transition to port y. -/
theorem endNotice_eq {y : Port} {s : State} (hmode : s.ctrl.mode = .on y) :
    endNotice s = s.withParts s.ctrl s.mixer (s.align.ended y) s.tables (s.recording (s.align.endRecords y)) := by
  cases hskew : s.align.deferredSkew with
  | none =>
    have hstands : endNotice s = { s with align := { s.align with transition := false, deferred := false } } := by
      unfold Alignment.deferredSkew at hskew
      unfold endNotice
      dsimp only
      split
      · next hdeferred =>
        rw [if_pos hdeferred] at hskew
        unfold applyOffAir
        rw [hskew]
      · rfl
    rw [hstands]
    unfold Alignment.ended Alignment.endRecords
    rw [hskew]
    rfl
  | some k =>
    obtain ⟨hdeferred, hk⟩ : s.align.deferred = true ∧ s.align.accepted = some k := by
      unfold Alignment.deferredSkew at hskew
      exact ite_eq_iff.mp hskew |>.resolve_right fun h => by cases h.2
    have hupdate := applyOffAir_of_on (s := { s with align := { s.align with transition := false, deferred := false } }) hmode hk
    refine (if_pos hdeferred).trans (hupdate.trans ?_)
    unfold Alignment.ended Alignment.endRecords
    rw [hskew]
    rfl

/-! #### The release of a deferred adoption (R105, R106) -/

/-- Table memory after the release of an adoption, if one is DEFERRED (R105). -/
def State.releasedTables (s : State) : TableMemory :=
  if s.applyDeferred = true then
    { s.tables with apply := none, live := if validate s.tables = none then s.tables.staged else s.tables.live }
  else s.tables

/-- The record of that adoption (R106). -/
def State.releaseRecords (s : State) : List EventBody :=
  if s.applyDeferred = true then
    match validate s.tables with
    | none => [.applyDone (s.tables.staged.route != s.tables.live.route) (s.tables.staged.curve != s.tables.live.curve)
        (s.tables.staged.profile != s.tables.live.profile)]
    | some reason => [.applyRefused reason]
  else []

theorem releaseDeferred_eq (s : State) :
    releaseDeferred s = s.withParts s.ctrl s.mixer s.align s.releasedTables s.events := by
  unfold releaseDeferred State.releasedTables adopt
  dsimp only
  split
  · cases hvalid : validate s.tables with
    | none => simp only [if_true]; rfl
    | some reason => simp only [reduceCtorEq, if_false]; rfl
  · rfl

/-- The record of the adoption that a sample releases, behind the records the controller has made there (R106). -/
theorem recordAdoption_of_release {s t : State} (h : t.tables = s.releasedTables) :
    recordAdoption s t = t.withParts t.ctrl t.mixer t.align t.tables (t.recording s.releaseRecords) := by
  by_cases hd : s.applyDeferred = true
  · have hsome : s.tables.apply.isSome = true := by
      unfold State.applyDeferred at hd
      split at hd
      · next hrecord => rw [hrecord]; rfl
      · cases hd
    have hnone : t.tables.apply.isNone = true := by rw [h, State.releasedTables, if_pos hd]; rfl
    have hrecord : s.releaseRecords = [adoptionRecord s.tables] := by
      refine (if_pos hd).trans ?_
      unfold adoptionRecord
      cases validate s.tables <;> rfl
    rw [hrecord]
    exact if_pos (by rw [hsome, hnone]; rfl)
  · have hrecord : s.releaseRecords = [] := if_neg hd
    rw [hrecord]
    exact recordAdoption_of_tables (h.trans (if_neg hd))

/-! #### The verdict of the new on-air port (R61 steps 5 and 6) -/

/-- The start left at a fade end: a reversal that waits becomes a fade (R61 step 5). -/
def State.startLeft (s : State) : Option ScheduledStart :=
  match s.ctrl.scheduled with
  | some ⟨.reversal, target, cause⟩ => some ⟨.fade, target, cause⟩
  | other => other

theorem convertReversal_eq (s : State) :
    convertReversal s = s.withParts { s.ctrl with scheduled := s.startLeft } s.mixer s.align s.tables s.events := by
  have hstands : s = s.withParts { s.ctrl with scheduled := s.ctrl.scheduled } s.mixer s.align s.tables s.events := rfl
  unfold convertReversal State.startLeft
  cases hst : s.ctrl.scheduled with
  | none => rwa [hst] at hstands
  | some start =>
    obtain ⟨action, target, cause⟩ := start
    cases action with
    | reversal => rfl
    | _ => rwa [hst] at hstands

/-- Port y on air is not ready, and its part fails over to the other (R61 step 6). -/
abbrev State.FailsOver (s : State) (y : Port) : Prop :=
  s.ready y = false ∧ s.ctrl.scheduled = none ∧ s.ctrl.auto = true ∧ s.ready y.other = true

/-- Port y on air is not ready, and nothing else can be put on air (R61 step 6). -/
abbrev State.Degrades (s : State) (y : Port) : Prop :=
  s.ready y = false ∧ s.ctrl.scheduled = none ∧ ¬ s.FailsOver y

/-- Step 6 of a fade end: a failover, DEGRADED set or cleared, or a start that is left to bring the change. -/
theorem examineOnAir_cases (y : Port) (s : State) :
    examineOnAir y s = if s.FailsOver y then scheduleFailover y.other s else if s.Degrades y then setDegraded s
      else if s.ready y = true then clearDegraded s else s := by
  unfold examineOnAir State.Degrades State.FailsOver
  cases s.ready y with
  | true => simp
  | false =>
    cases s.ctrl.scheduled with
    | some st => simp
    | none =>
      cases s.ctrl.auto with
      | false => simp
      | true => cases s.ready y.other <;> simp

/-- All that step 6 of a fade end does. -/
theorem examineOnAir_eq {y : Port} {s : State} (hmode : s.ctrl.mode = .on y) :
    examineOnAir y s = s.withParts
      { s.ctrl with
        scheduled := if s.FailsOver y then some ⟨.fade, y.other, .failure⟩ else s.ctrl.scheduled
        pendingSwitch := if s.FailsOver y then none else s.ctrl.pendingSwitch
        degraded := if s.ready y = true then false else if s.Degrades y then true else s.ctrl.degraded }
      { s.mixer with owedStart := if s.FailsOver y then false else s.mixer.owedStart }
      s.align s.tables
      (s.recording (if s.FailsOver y then replacedRecord s.ctrl.pendingSwitch
        else if s.Degrades y ∧ s.ctrl.degraded = false then [.degraded (some y)] else [])) := by
  have hair : s.ctrl.mode.onAir = some y := by rw [hmode]; rfl
  rw [examineOnAir_cases]
  by_cases hover : s.FailsOver y
  · have hready : s.ready y ≠ true := by rw [hover.1]; exact Bool.false_ne_true
    have hstands : ¬ s.Degrades y := fun h => h.2.2 hover
    simp only [if_pos hover, if_neg hready, if_neg hstands]
    exact scheduleFailover_eq y.other s
  · by_cases hdegrades : s.Degrades y
    · have hready : s.ready y ≠ true := by rw [hdegrades.1]; exact Bool.false_ne_true
      simp only [if_neg hover, if_pos hdegrades, if_neg hready]
      rw [setDegraded_eq, hair]
      cases hbefore : s.ctrl.degraded with
      | true => simp only [Bool.true_eq_false, and_false, if_true, if_false]; rfl
      | false => simp only [and_true, if_pos hdegrades, Bool.false_eq_true, if_false]; rfl
    · simp only [if_neg hover, hdegrades, false_and, if_false]
      by_cases hready : s.ready y = true
      · simp only [if_pos hready]
        rfl
      · simp only [if_neg hready]
        rfl

/-! #### The transition's end (R61) -/

/-- A fade end up to its verdict: y on air, its steps 1 to 5 taken. -/
def State.settledOn (s : State) (y : Port) : State :=
  s.withParts { s.ctrl with mode := .on y, q := 0, len := 0, holdoff := 0, scheduled := s.startLeft } s.mixer (s.align.ended y)
    s.releasedTables (s.recording (.switchEnd y s.ctrl.sat :: s.align.endRecords y))

theorem endTransition_settledOn (y : Port) (s : State) : endTransition y s = examineOnAir y (s.settledOn y) := by
  have hend : offerEvent (.switchEnd y s.ctrl.sat) { s with ctrl := { s.ctrl with mode := .on y, q := 0, len := 0 } }
      = s.withParts { s.ctrl with mode := .on y, q := 0, len := 0 } s.mixer s.align s.tables (s.recording [.switchEnd y s.ctrl.sat]) :=
    rfl
  have hholdoff : ∀ t : State, { t with ctrl := { t.ctrl with holdoff := 0 } }
      = t.withParts { t.ctrl with holdoff := 0 } t.mixer t.align t.tables t.events := fun _ => rfl
  unfold endTransition
  dsimp only
  rw [hend, endNotice_eq (y := y) rfl, releaseDeferred_eq, hholdoff, convertReversal_eq]
  simp only [withParts_ctrl, withParts_mixer, withParts_align, withParts_tables, withParts_events, withParts_withParts,
    withParts_recording]
  rfl

theorem settledOn_recording (s : State) (y : Port) (xs : List EventBody) :
    (s.settledOn y).recording xs = s.recording (.switchEnd y s.ctrl.sat :: s.align.endRecords y ++ xs) :=
  withParts_recording _ _ _ _ _ _ _

/-- The records of a fade end, the adoption's behind the controller's (R61, R106). -/
def State.endRecords (s : State) (y : Port) : List EventBody :=
  .switchEnd y s.ctrl.sat :: s.align.endRecords y
    ++ (if (s.settledOn y).FailsOver y then replacedRecord s.ctrl.pendingSwitch
      else if (s.settledOn y).Degrades y ∧ s.ctrl.degraded = false then [.degraded (some y)] else [])
    ++ s.releaseRecords

/-- All that a fade end does, with the record of the adoption it releases. -/
theorem recordAdoption_endTransition (y : Port) (s : State) :
    recordAdoption s (endTransition y s) = s.withParts
      { s.ctrl with
        mode := .on y, q := 0, len := 0, holdoff := 0
        scheduled := if (s.settledOn y).FailsOver y then some ⟨.fade, y.other, .failure⟩ else s.startLeft
        pendingSwitch := if (s.settledOn y).FailsOver y then none else s.ctrl.pendingSwitch
        degraded := if s.ready y = true then false else if (s.settledOn y).Degrades y then true else s.ctrl.degraded }
      { s.mixer with owedStart := if (s.settledOn y).FailsOver y then false else s.mixer.owedStart }
      (s.align.ended y) s.releasedTables (s.recording (s.endRecords y)) := by
  have htables : (endTransition y s).tables = s.releasedTables := by
    rw [endTransition_settledOn, examineOnAir_eq rfl]
    rfl
  rw [recordAdoption_of_release htables, htables, endTransition_settledOn, examineOnAir_eq rfl]
  simp only [withParts_ctrl, withParts_mixer, withParts_align, withParts_recording, withParts_withParts]
  rw [settledOn_recording, ← List.append_assoc]
  rfl

end Sys2Proof.Machine

/-! ### A sample at which nothing is answered (R54, R60, R90, R95, R96) -/

namespace Sys2Proof.Machine

/-- The state of such a sample before its step 5: its row mixed at fade position q, its position record and first mark in place. -/
def State.mixedTo (s : State) (q : Nat) (position : ProgramPosition) : State :=
  s.withParts { s.ctrl with q := q, sat := s.satAt q }
    { s.mixer with earlyMark := none, rows := s.mixer.rows ++ [s.mixedAt q], firstMark := s.markAfter }
    { s.align with position := position } s.tables s.events

/-- The position record of the program span in progress once the next sample is made (R54). -/
def State.positionMade (s : State) : ProgramPosition :=
  if s.clock.made = 0 then s.restamped else s.align.position

theorem answerMark_of_unwaited {m : MarkReport} {s : State} (hswitch : s.ctrl.pendingSwitch = none) (happly : s.tables.apply = none) :
    answerMark m s = noteMark s := by
  have hcontroller : controllerMark m (noteMark s) = noteMark s := controllerMark_of_none m (by rw [noteMark_eq]; exact hswitch)
  have htables : (noteMark s).applyWaitsMark m.song = false := by
    unfold State.applyWaitsMark
    rw [noteMark_eq]
    dsimp only
    rw [happly]
  unfold answerMark tableMark
  rw [hcontroller, htables]
  rfl

/-- A mark that no pending record waits for is noted, and nothing else (R92, R95). -/
theorem sampleStep2_of_unanswered {s : State} (h : s.Unanswered) :
    sampleStep2 s = { s with mixer := { s.mixer with earlyMark := none, firstMark := s.markAfter } } := by
  obtain ⟨-, -, -, -, hmark⟩ := h
  cases hread : s.sampleMark with
  | none =>
    have hfirst : s.markAfter = s.mixer.firstMark := by
      unfold State.markAfter
      rw [hread]
      cases s.mixer.firstMark <;> rfl
    rw [sampleStep2_of_none hread, hfirst]
  | some m =>
    have hfirst : s.markAfter = some (s.mixer.firstMark.getD s.clock.made) := by
      unfold State.markAfter
      rw [hread]
      cases s.mixer.firstMark <;> rfl
    obtain ⟨hswitch, happly⟩ := hmark (by rw [hread]; exact Option.some_ne_none m)
    rw [sampleStep2_of_some hread, hfirst]
    exact (answerMark_of_unwaited (s := { s with mixer := { s.mixer with earlyMark := none } }) hswitch happly).trans (noteMark_eq _)

/-- The mix of a sample, in the rules' own terms (R90, R91). -/
theorem mixSample_eq (s : State) :
    mixSample s = { s with
      mixer := { s.mixer with rows := s.mixer.rows ++ [s.mixedAt s.ctrl.q] }
      ctrl := { s.ctrl with sat := s.satAt s.ctrl.q } } := by
  have hrow : (mixedRow s).map limitSample = s.mixedAt s.ctrl.q := by
    rw [mixedRow_eq, List.map_map]
    rfl
  have hcount : satAdd 65535 s.ctrl.sat ((mixedRow s).countP saturates) = s.satAt s.ctrl.q := by
    rw [mixedRow_eq, List.countP_map]
    rfl
  unfold mixSample
  dsimp only
  rw [hrow, hcount]

/-- The position record is stamped at the first sample of a span, alike whatever the mixer holds, the delays apart (R54). -/
theorem sampleRestamp_mixer {s : State} {x : Mixer} (h : x.delays = s.mixer.delays) :
    sampleRestamp { s with mixer := x } = { s with mixer := x, align := { s.align with position := s.positionMade } } := by
  have hread : State.restamped { s with mixer := x } = s.restamped := by
    unfold State.restamped
    dsimp only
    rw [h]
    rfl
  unfold sampleRestamp State.positionMade restamp
  rw [hread]
  dsimp only
  split <;> rfl

/-- Such a sample before its step 5. -/
theorem sampleMixed_of_unanswered {s : State} (h : s.Unanswered) :
    sampleMixed s = s.mixedTo (if s.ctrl.mode.isTransition = true then s.ctrl.q + 1 else s.ctrl.q) s.positionMade := by
  obtain ⟨-, -, -, howed, -⟩ := id h
  have hstamp := sampleRestamp_mixer (s := s) (x := { s.mixer with earlyMark := none, firstMark := s.markAfter }) rfl
  unfold sampleMixed
  rw [sampleStep1_of_answered howed, sampleStep2_of_unanswered h]
  refine (congrArg (fun u => mixSample (sampleStep3 u)) hstamp).trans ?_
  unfold sampleStep3
  dsimp only
  split
  · exact mixSample_eq _
  · exact mixSample_eq _

/-- The count and the hand-over of a sample whose row is mixed (R18, R95, R96). -/
theorem handOver_countSample {s u : State} {row : List Sample} (hclock : u.clock = s.clock) (hprog : u.prog = s.prog)
    (hsent : u.sentProgram = s.sentProgram) (hrows : u.mixer.rows = s.mixer.rows ++ [row]) (hfirst : u.mixer.firstMark = s.markAfter)
    (hearly : u.mixer.earlyMark = none) : handOver (countSample u) = s.withRow u row u.align.position := by
  have hmade : u.clock.made + 1 = Config.spanLength ↔ s.clock.made = 31 := by
    rw [hclock]
    exact Nat.succ_inj
  unfold handOver State.withRow
  by_cases hlast : s.clock.made = 31
  · rw [if_pos (c := (countSample u).clock.made = _) (hmade.mpr hlast)]
    unfold sendProgramSpan State.programSpan countSample
    dsimp only
    simp only [if_pos hlast]
    rw [hclock, hprog, hrows, hfirst, hearly]
    rfl
  · rw [if_neg (c := (countSample u).clock.made = _) (mt hmade.mp hlast)]
    unfold countSample
    simp only [if_neg hlast]
    rw [hclock, ← hprog, ← hsent, ← hrows, ← hfirst, ← hearly]

/-! #### The sample that ends a transition -/

/-- Only a transition has a target (4.1). -/
theorem isTransition_of_target {m : Mode} {y : Port} (h : m.target = some y) : m.isTransition = true := by
  cases m with
  | opening x => rfl
  | fade x => rfl
  | _ => cases h

/-- The state that such a sample ends its transition in (R92 step 5). -/
theorem sampleMixed_of_fadeEnd {s : State} {y : Port} (h : s.Unanswered) (htarget : s.ctrl.mode.target = some y)
    (hq : s.ctrl.q + 1 = s.ctrl.len) : sampleMixed s = s.mixedTo s.ctrl.len s.positionMade := by
  rw [sampleMixed_of_unanswered h, if_pos (isTransition_of_target htarget), hq]

theorem fadeEndDue_mixedTo {s : State} {y : Port} (position : ProgramPosition) (htarget : s.ctrl.mode.target = some y) :
    fadeEndDue (s.mixedTo s.ctrl.len position) = true := by
  show (s.ctrl.mode.isTransition && s.ctrl.len == s.ctrl.len) = true
  rw [isTransition_of_target htarget, beq_self_eq_true]
  rfl

/-- The sample is its row, counted and handed over, in the state that the fade end leaves. -/
theorem makeSample_of_fadeEnd {s : State} {y : Port} (h : s.Unanswered) (htarget : s.ctrl.mode.target = some y)
    (hq : s.ctrl.q + 1 = s.ctrl.len) :
    let u := s.mixedTo s.ctrl.len s.positionMade
    makeSample s = s.withRow (recordAdoption u (endTransition y u)) (s.mixedAt s.ctrl.len) s.positionMade := by
  intro u
  have hstep5 : sampleStep5 u = endTransition y u := by
    have hend : fadeEnd u = endTransition y u := by
      unfold fadeEnd
      rw [show u.ctrl.mode.target = some y from htarget]
    exact (if_pos (fadeEndDue_mixedTo _ htarget)).trans hend
  have hsample : makeSample s = handOver (countSample (recordAdoption u (endTransition y u))) := by
    unfold makeSample
    rw [sampleMixed_of_fadeEnd h htarget hq, hstep5]
    rfl
  have hended := recordAdoption_endTransition y u
  rw [hsample, handOver_countSample (s := s) (row := s.mixedAt s.ctrl.len)]
  · rw [hended]
    rfl
  all_goals
    rw [hended]
    rfl

/-- FADE_END makes that sample (log 27). -/
theorem exec_fadeEnd_of_due {s : State} {y : Port} (h : s.Unanswered) (htarget : s.ctrl.mode.target = some y)
    (hq : s.ctrl.q + 1 = s.ctrl.len) : exec .fadeEnd s = exec .programSample s := by
  obtain ⟨hrun, hbegun, hmade, -, -⟩ := id h
  have hends : endFadeAtSample s = nextSample s := by
    unfold endFadeAtSample
    dsimp only
    rw [atSample_of_begun hbegun hmade, sampleMixed_of_fadeEnd h htarget hq]
    refine (if_pos (fadeEndDue_mixedTo _ htarget)).trans ?_
    unfold nextSample
    rw [atSample_of_begun hbegun hmade]
  exact (whileRunning_of_running hrun).trans
    ((congrArg (fun u => Host.Outcome.next (State.settleLines u)) hends).trans (whileRunning_of_running hrun).symm)

/-- The engine finds nothing to serve after a sample, with no request waiting (log 7). -/
theorem lookAfterSpan_of_quiet {s t : State} (hports : t.ports = s.ports) (hmade : t.clock.made = s.clock.made + 1)
    (hquiet : s.clock.made = 31 → s.NoRequests) : lookAfterSpan t = t := by
  unfold lookAfterSpan
  split
  · next hlast =>
    have hmade31 : s.clock.made = 31 := Nat.succ_inj.mp (hmade.symm.trans hlast)
    exact runEngine_of_noRequests fun q => by rw [hports]; exact noRequests_get (hquiet hmade31) q
  · rfl

/-- Settles O22: the sample by `makeSample_of_fadeEnd`, its end by `recordAdoption_endTransition`. -/
theorem fadeEndFollowsItsSteps : Obligations.FadeEndFollowsItsSteps := by
  unfold Obligations.FadeEndFollowsItsSteps
  intro s y h hquiet htarget hq sat left failover degrades deferred skew raw
  obtain ⟨hrun, hbegun, hmade, -, -⟩ := id h
  have hsample := makeSample_of_fadeEnd h htarget hq
  dsimp only at hsample
  rw [recordAdoption_endTransition] at hsample
  have hlook : lookAfterSpan (makeSample s) = makeSample s :=
    lookAfterSpan_of_quiet (s := s) (by rw [hsample]; rfl) (by rw [hsample]; rfl) hquiet
  refine ⟨?_, _, exec_programSample hrun hbegun hmade, fun hpast => ?_, ?_⟩
  · exact exec_fadeEnd_of_due h htarget hq
  · rw [hlook, hsample]
    exact if_neg hpast
  · rw [hlook, hsample]
    rfl

end Sys2Proof.Machine

/-! ### A sample that ends no fade (R60, R90, R91, R95, R96) -/

namespace Sys2Proof.Machine

/-- The sample is its row, counted and handed over, with the position record and the first mark in place. -/
theorem makeSample_of_unended {s : State} {q : Nat} (h : s.Unanswered)
    (hq : q = if s.ctrl.mode.isTransition = true then s.ctrl.q + 1 else s.ctrl.q)
    (hends : s.ctrl.mode.isTransition = true → q ≠ s.ctrl.len) :
    makeSample s = s.withRow (s.mixedTo q s.positionMade) (s.mixedAt q) s.positionMade := by
  have hmixed : sampleMixed s = s.mixedTo q s.positionMade := by rw [sampleMixed_of_unanswered h, ← hq]
  have hnot : fadeEndDue (s.mixedTo q s.positionMade) = false := by
    show (s.ctrl.mode.isTransition && q == s.ctrl.len) = false
    rw [Bool.and_eq_false_imp]
    exact fun htransition => beq_false_of_ne (hends htransition)
  have hstep5 : sampleStep5 (s.mixedTo q s.positionMade) = s.mixedTo q s.positionMade :=
    if_neg (by rw [hnot]; exact Bool.false_ne_true)
  unfold makeSample
  rw [hmixed, hstep5, recordAdoption_of_tables (s := s) (t := s.mixedTo q s.positionMade) rfl]
  exact handOver_countSample rfl rfl rfl rfl rfl rfl

/-- PROGRAM_SAMPLE makes that sample, and the engine finds nothing to serve (log 7). -/
theorem exec_programSample_of_unended {s : State} {q : Nat} (h : s.Unanswered) (hquiet : s.clock.made = 31 → s.NoRequests)
    (hq : q = if s.ctrl.mode.isTransition = true then s.ctrl.q + 1 else s.ctrl.q)
    (hends : s.ctrl.mode.isTransition = true → q ≠ s.ctrl.len) :
    exec .programSample s
      = .next (s.withRow (s.mixedTo q s.positionMade) (s.mixedAt q) s.positionMade).settleLines := by
  obtain ⟨hrun, hbegun, hmade, -, -⟩ := id h
  have hsample := makeSample_of_unended h hq hends
  have hlook : lookAfterSpan (makeSample s) = makeSample s :=
    lookAfterSpan_of_quiet (s := s) (by rw [hsample]; rfl) (by rw [hsample]; rfl) hquiet
  rw [exec_programSample hrun hbegun hmade, hlook, hsample]

/-- Inside a span nothing is answered. -/
theorem unanswered_of_midSpan {s : State} (h : s.MidSpan) : s.Unanswered := by
  obtain ⟨hrun, hbegun, hfirst, hlast, hmark⟩ := h
  exact ⟨hrun, hbegun, by omega, fun hmade => absurd hmade hfirst.ne', fun hreports => absurd hmark hreports⟩

/-- With no mark at the sample, none has been answered ahead of it (log 3). -/
theorem earlyMark_of_unmarked {s : State} (h : s.sampleMark = none) : s.mixer.earlyMark = none := by
  unfold State.sampleMark at h
  split at h
  · cases h
  · assumption

/-- With no mark at the sample, the span keeps the first mark it has (R95). -/
theorem markAfter_of_unmarked {s : State} (h : s.sampleMark = none) : s.markAfter = s.mixer.firstMark := by
  unfold State.markAfter
  rw [h]
  cases s.mixer.firstMark <;> rfl

/-- Inside a span a sample adds its row, and leaves position record, marks and program port as they stand. -/
theorem withRow_of_midSpan {s : State} (h : s.MidSpan) (q : Nat) :
    s.withRow (s.mixedTo q s.positionMade) (s.mixedAt q) s.positionMade = { s with
      clock := { s.clock with made := s.clock.made + 1 }
      mixer := { s.mixer with rows := s.mixer.rows ++ [s.mixedAt q] }
      ctrl := { s.ctrl with q := q, sat := s.satAt q } } := by
  obtain ⟨-, -, hfirst, hlast, hmark⟩ := h
  have hposition : s.positionMade = s.align.position := if_neg hfirst.ne'
  have hearly := earlyMark_of_unmarked hmark
  unfold State.withRow
  simp only [if_neg hlast.ne]
  rw [markAfter_of_unmarked hmark, hposition, ← hearly]
  rfl

/-- The sample inside a span that ends no fade. -/
theorem exec_programSample_of_midSpan {s : State} {q : Nat} (h : s.MidSpan)
    (hq : q = if s.ctrl.mode.isTransition = true then s.ctrl.q + 1 else s.ctrl.q)
    (hends : s.ctrl.mode.isTransition = true → q ≠ s.ctrl.len) :
    exec .programSample s = .next (State.settleLines { s with
      clock := { s.clock with made := s.clock.made + 1 }
      mixer := { s.mixer with rows := s.mixer.rows ++ [s.mixedAt q] }
      ctrl := { s.ctrl with q := q, sat := s.satAt q } }) := by
  obtain ⟨-, -, -, hlast, -⟩ := id h
  have hquiet : s.clock.made = 31 → s.NoRequests := fun hmade => absurd hmade hlast.ne
  rw [exec_programSample_of_unended (unanswered_of_midSpan h) hquiet hq hends, withRow_of_midSpan h]

/-- Settles O15: inside a span by `exec_programSample_of_midSpan`, at any sample by `exec_programSample_of_unended`. -/
theorem sampleIsTheWeightedMix : Obligations.SampleIsTheWeightedMix := by
  unfold Obligations.SampleIsTheWeightedMix
  refine ⟨?_, ?_⟩
  · intro s h q hends
    exact exec_programSample_of_midSpan h rfl hends
  · intro s h hquiet q hends
    exact ⟨_, exec_programSample_of_unended h hquiet rfl hends, fun hpast => if_neg hpast, rfl⟩

/-! ### Samples outside transitions (R84, R87, R90, R91) -/

/-- A source sample lies in the 24-bit range (R83). -/
theorem heard_bounds (s : State) (p : Port) (slot : Option (Fin 64)) : -8388608 ≤ s.heard p slot ∧ s.heard p slot ≤ 8388607 := by
  have hsilent : (-8388608 : Int) ≤ 0 ∧ (0 : Int) ≤ 8388607 := by decide
  have hsample : ∀ x : Sample, -8388608 ≤ x.toInt ∧ x.toInt ≤ 8388607 := fun x =>
    ⟨x.le_toInt, Int.le_of_lt_add_one x.toInt_lt⟩
  unfold State.heard
  cases slot with
  | none => exact hsilent
  | some k =>
    dsimp only
    split
    · exact hsilent
    · cases s.readSlot p with
      | empty => exact hsilent
      | valid info audio => exact hsample _
      | predicted info audio => exact hsample _

/-- What a channel carries outside transitions: at most one source, by its class and the port on air (R84, R87). -/
def State.carried (s : State) (e : RouteEntry) : Int :=
  match s.classOf e with
  | .pinA => s.heard .a e.slotA
  | .pinB => s.heard .b e.slotB
  | .mute => 0
  | .byDefault => 0
  | _ => if s.ctrl.mode = .on .a then s.heard .a e.slotA else if s.ctrl.mode = .on .b then s.heard .b e.slotB else 0

theorem carried_bounds (s : State) (e : RouteEntry) : -8388608 ≤ s.carried e ∧ s.carried e ≤ 8388607 := by
  have ha := heard_bounds s .a e.slotA
  have hb := heard_bounds s .b e.slotB
  unfold State.carried
  split
  · exact ha
  · exact hb
  · decide
  · decide
  · split_ifs
    · exact ha
    · exact hb
    · decide

/-- A FOLLOW or CUT channel outside transitions has unity on the port on air and nothing on the other (R84). -/
theorem gain_of_on {s : State} {x : Port} {e : RouteEntry} (hmode : s.ctrl.mode = .on x)
    (hclass : s.classOf e = .follow ∨ s.classOf e = .cut) (q : Nat) (p : Port) :
    s.gain q p e = if p = x then 32768 else 0 := by
  unfold State.gain
  rcases hclass with h | h <;> rw [h, hmode]

/-- In IDLE such a channel has no weight on either port (R84). -/
theorem gain_of_idle {s : State} {e : RouteEntry} (hmode : s.ctrl.mode = .idle)
    (hclass : s.classOf e = .follow ∨ s.classOf e = .cut) (q : Nat) (p : Port) : s.gain q p e = 0 := by
  unfold State.gain
  rcases hclass with h | h <;> rw [h, hmode]

/-- What the channel carries is its sum, whose weights are unity on at most one port and 0 elsewhere (R84, R87, R90). -/
theorem sum_of_steady {s : State} (h : s.ctrl.mode.isTransition = false) (q : Nat) (e : RouteEntry) :
    s.heard .a e.slotA * s.gain q .a e + s.heard .b e.slotB * s.gain q .b e = s.carried e * 32768 := by
  have hair : s.classOf e = .follow ∨ s.classOf e = .cut →
      s.heard .a e.slotA * s.gain q .a e + s.heard .b e.slotB * s.gain q .b e
        = (if s.ctrl.mode = .on .a then s.heard .a e.slotA else if s.ctrl.mode = .on .b then s.heard .b e.slotB else 0) * 32768 := by
    intro hclass
    cases hmode : s.ctrl.mode with
    | idle => simp [gain_of_idle hmode hclass]
    | on x => cases x <;> simp [gain_of_on hmode hclass]
    | opening x => rw [hmode] at h; cases h
    | fade x => rw [hmode] at h; cases h
  cases hclass : s.classOf e with
  | follow => rw [hair (.inl hclass), State.carried, hclass]
  | cut => rw [hair (.inr hclass), State.carried, hclass]
  | _ => simp [State.carried, State.gain, hclass]

/-- A channel at unity on one source is that source, unrounded (R90). -/
theorem rounded_of_steady {s : State} (h : s.ctrl.mode.isTransition = false) (q : Nat) (e : RouteEntry) :
    s.rounded q e = s.carried e := by
  unfold State.rounded
  rw [sum_of_steady h]
  omega

/-- Outside transitions a row holds what its channels carry, unlimited (R90). -/
theorem mixedAt_of_steady {s : State} (h : s.ctrl.mode.isTransition = false) (q : Nat) :
    s.mixedAt q = s.tables.live.route.map fun e => BitVec.ofInt 24 (s.carried e) := by
  refine List.map_congr_left fun e _ => ?_
  obtain ⟨hlow, hhigh⟩ := carried_bounds s e
  rw [rounded_of_steady h, min_eq_right hhigh, max_eq_right hlow]

/-- Outside transitions no sample saturates (R91). -/
theorem satAt_of_steady {s : State} (h : s.ctrl.mode.isTransition = false) (hsat : s.ctrl.sat ≤ 65535) (q : Nat) :
    s.satAt q = s.ctrl.sat := by
  have hnone : (s.tables.live.route.countP fun e => decide (8388607 < s.rounded q e ∨ s.rounded q e < -8388608)) = 0 := by
    refine List.countP_eq_zero.mpr fun e _ => ?_
    obtain ⟨hlow, hhigh⟩ := carried_bounds s e
    rw [rounded_of_steady h, decide_eq_true_eq]
    omega
  unfold State.satAt
  rw [hnone, Nat.add_zero, min_eq_right hsat]

/-- Settles O16: a sample inside a span by `exec_programSample_of_midSpan`, its channels by `rounded_of_steady` and `carried_bounds`. -/
theorem steadySampleCarriesOnePort : Obligations.SteadySampleCarriesOnePort := by
  unfold Obligations.SteadySampleCarriesOnePort
  refine ⟨fun s hmid h hsat => ?_, fun s q e h => ?_⟩
  · have hq : s.ctrl.q = if s.ctrl.mode.isTransition = true then s.ctrl.q + 1 else s.ctrl.q := by
      rw [h]
      rfl
    have hends : s.ctrl.mode.isTransition = true → s.ctrl.q ≠ s.ctrl.len := fun ht => by
      rw [h] at ht
      cases ht
    rw [exec_programSample_of_midSpan hmid hq hends, mixedAt_of_steady h, satAt_of_steady h hsat]
    rfl
  · obtain ⟨hlow, hhigh⟩ := carried_bounds s e
    rw [rounded_of_steady h]
    exact ⟨rfl, hlow, hhigh⟩

end Sys2Proof.Machine

/-! ### Curves (R88, R89) -/

namespace Sys2Proof.Machine

/-! #### The value between two points -/

/-- A step scaled by a fraction below 1 and rounded down lies between 0 and the step. -/
theorem scaled_step_between (d : Int) {frac len : Nat} (h : frac < len) :
    min 0 d ≤ d * frac / len ∧ d * frac / len ≤ max 0 d := by
  have hlen : (0 : Int) < len := by omega
  have hfrac : (frac : Int) ≤ len := by omega
  rcases le_total 0 d with hd | hd
  · rw [min_eq_left hd, max_eq_right hd]
    exact ⟨Int.ediv_nonneg (mul_nonneg hd (Int.natCast_nonneg frac)) hlen.le,
      Int.ediv_le_of_le_mul hlen (mul_le_mul_of_nonneg_left hfrac hd)⟩
  · rw [min_eq_right hd, max_eq_left hd]
    exact ⟨Int.le_ediv_of_mul_le hlen (mul_le_mul_of_nonpos_left hfrac hd),
      Int.ediv_le_of_le_mul hlen (by rw [zero_mul]; exact mul_nonpos_of_nonpos_of_nonneg hd (Int.natCast_nonneg frac))⟩

section

variable (t : Tables) (n : Nat) {len p : Nat}

/-- At the end of a fade a curve stands at unity, whatever its points (R89). -/
theorem evalCurve_end (h : 0 < len) : evalCurve t n len len = 32768 :=
  if_pos (Nat.mul_div_cancel 64 h)

/-- Before its end a curve interpolates between two points (R89). -/
theorem evalCurve_inside (h : p < len) :
    evalCurve t n len p = t.curvePoint n (64 * p / len)
      + (t.curvePoint n (64 * p / len + 1) - t.curvePoint n (64 * p / len)) * (64 * p % len : Nat) / len :=
  if_neg (Nat.div_lt_of_lt_mul (by omega)).ne

/-- Before its end a curve stays within the two points it interpolates (R89). -/
theorem evalCurve_between (h : p < len) :
    min (t.curvePoint n (64 * p / len)) (t.curvePoint n (64 * p / len + 1)) ≤ evalCurve t n len p
      ∧ evalCurve t n len p ≤ max (t.curvePoint n (64 * p / len)) (t.curvePoint n (64 * p / len + 1)) := by
  have hstep := scaled_step_between (t.curvePoint n (64 * p / len + 1) - t.curvePoint n (64 * p / len))
    (Nat.mod_lt (64 * p) (Nat.zero_lt_of_lt h))
  rw [evalCurve_inside t n h]
  omega

/-- A fade begins at the curve's first point (R89). -/
theorem evalCurve_zero (h : 0 < len) : evalCurve t n len 0 = t.curvePoint n 0 := by
  rw [evalCurve_inside t n h]
  simp

end

/-! #### Curves of the live shape -/

section

variable {t : Tables} {n : Nat}

/-- Each point of the curve is at most the point after it (R88). -/
def Tables.Rises (t : Tables) (n : Nat) : Prop :=
  ∀ i < 64, t.curvePoint n i ≤ t.curvePoint n (i + 1)

theorem curvePoint_le (h : t.Rises n) {i j : Nat} (hij : i ≤ j) (hj : j ≤ 64) : t.curvePoint n i ≤ t.curvePoint n j := by
  induction j, hij using Nat.le_induction with
  | base => exact le_rfl
  | succ j _ ih => exact (ih (by omega)).trans (h j (by omega))

/-- A curve that rises from point to point does not fall between two positions: within one interval its fraction grows, and from one
interval to a later one a point lies between (R88, R89). -/
theorem evalCurve_mono (h : t.Rises n) (hend : t.curvePoint n 64 = 32768) {len p p' : Nat} (hlen : 0 < len) (hpp : p ≤ p')
    (hp' : p' ≤ len) : evalCurve t n len p ≤ evalCurve t n len p' := by
  rcases hpp.eq_or_lt with rfl | hlt
  · exact le_rfl
  have hp : p < len := hlt.trans_le hp'
  have hidx : 64 * p / len < 64 := Nat.div_lt_of_lt_mul (by omega)
  have hrise := h _ hidx
  have hupper : evalCurve t n len p ≤ t.curvePoint n (64 * p / len + 1) :=
    (evalCurve_between t n hp).2.trans_eq (max_eq_right hrise)
  rcases hp'.eq_or_lt with rfl | hlt'
  · rw [evalCurve_end t n hlen, ← hend]
    exact hupper.trans (curvePoint_le h hidx le_rfl)
  have hidx' : 64 * p' / len < 64 := Nat.div_lt_of_lt_mul (by omega)
  rcases (Nat.div_le_div_right (c := len) (Nat.mul_le_mul_left 64 hpp)).eq_or_lt with hsame | hlater
  · have hfrac : 64 * p % len ≤ 64 * p' % len := by
      have hsplit := Nat.div_add_mod (64 * p) len
      have hsplit' := Nat.div_add_mod (64 * p') len
      rw [← hsame] at hsplit'
      omega
    rw [evalCurve_inside t n hp, evalCurve_inside t n hlt', ← hsame]
    have hscaled := mul_le_mul_of_nonneg_left (Int.ofNat_le.mpr hfrac) (Int.sub_nonneg_of_le hrise)
    exact Int.add_le_add_left (Int.ediv_le_ediv (Int.natCast_pos.mpr hlen) hscaled) _
  · calc evalCurve t n len p
        ≤ t.curvePoint n (64 * p / len + 1) := hupper
      _ ≤ t.curvePoint n (64 * p' / len) := curvePoint_le h hlater hidx'.le
      _ ≤ evalCurve t n len p' := (min_eq_left (h _ hidx')).symm.trans_le (evalCurve_between t n hlt').1

/-- The linear curve gives the floor of 32768 p / F (5.3). -/
theorem evalCurve_linear (h : ∀ i ≤ 64, t.curvePoint n i = 512 * i) {len p : Nat} (hlen : 0 < len) (hp : p ≤ len) :
    evalCurve t n len p = 32768 * p / len := by
  rcases hp.eq_or_lt with rfl | hlt
  · rw [evalCurve_end t n hlen, Int.mul_ediv_cancel _ (by omega)]
  have hidx : 64 * p / len < 64 := Nat.div_lt_of_lt_mul (by omega)
  have hstep : t.curvePoint n (64 * p / len + 1) - t.curvePoint n (64 * p / len) = 512 := by
    rw [h _ hidx, h _ hidx.le]
    push_cast
    ring
  have hsplit : (len : Int) * (64 * p / len : Nat) + (64 * p % len : Nat) = 64 * p := by
    exact_mod_cast Nat.div_add_mod (64 * p) len
  rw [evalCurve_inside t n hlt, hstep, h _ hidx.le]
  calc (512 * (64 * p / len : Nat) + 512 * (64 * p % len : Nat) / len : Int)
      = (512 * (64 * p % len : Nat) + 512 * (64 * p / len : Nat) * len) / len := by
        rw [Int.add_mul_ediv_right _ _ (by omega), add_comm]
    _ = 32768 * p / len := by
        congr 1
        linear_combination 512 * hsplit

end

/-- Settles O17: the ends, the bounds, the rise and the linear curve, each by its lemma on `evalCurve`. -/
theorem curvesRiseFromSilenceToUnity : Obligations.CurvesRiseFromSilenceToUnity := by
  unfold Obligations.CurvesRiseFromSilenceToUnity
  intro t n len hlen c
  have hpoint : ∀ i, t.curvePoint n i = (c i : Int) := fun _ => rfl
  refine ⟨evalCurve_end t n hlen, fun hzero => ?_, fun p hp => ?_, fun hrise hend p p' hpp hp' => ?_, fun hline p hp => ?_⟩
  · rw [evalCurve_zero t n hlen, hpoint, hzero, Nat.cast_zero]
  · have hbetween := evalCurve_between t n hp
    rw [hpoint, hpoint] at hbetween
    exact_mod_cast hbetween
  · have hrises : t.Rises n := fun i hi => Int.ofNat_le.mpr (hrise i hi)
    exact evalCurve_mono hrises (by rw [hpoint, hend]; rfl) hlen hpp hp'
  · exact evalCurve_linear (fun i hi => by rw [hpoint, hline i hi]; push_cast; rfl) hlen hp

end Sys2Proof.Machine

/-! ### Writes of table entries (R100, R101; 11.3) -/

namespace Sys2Proof.Machine

/-- Every field of a copy of the tables is in its range (R100). -/
theorem tablesInRange_iff (t : Tables) :
    tablesInRange t = true ↔ t.route.length = 64 ∧ (t.curve.length = 260 ∧ ∀ v ∈ t.curve, v ≤ 32768)
      ∧ t.profile.length = 28 ∧ ∀ i < 28, profileInRange i (t.field i) = true := by
  simp [tablesInRange, and_assoc]

/-- The indices of a request, with the wrap past the table's last index (R101, R131). -/
theorem indicesFrom_eq (t : TableName) {first : Nat} (h : first ≤ t.lastIndex) (n : Nat) :
    indicesFrom t first n = (List.range n).map fun j => (first + j) % (t.lastIndex + 1) := by
  induction n generalizing first with
  | zero => rfl
  | succ n ih =>
    have hnext : nextIndex t first = (first + 1) % (t.lastIndex + 1) := by
      unfold nextIndex
      split
      · next hlast => rw [hlast, Nat.mod_self]
      · rw [Nat.mod_eq_of_lt (by omega)]
    have hle : nextIndex t first ≤ t.lastIndex := hnext ▸ Nat.lt_succ_iff.mp (Nat.mod_lt _ (Nat.succ_pos _))
    rw [indicesFrom, ih hle, hnext, List.range_succ_eq_map, List.map_cons, List.map_map]
    congr 1
    · exact (Nat.mod_eq_of_lt (Nat.lt_succ_of_le h)).symm
    · refine List.map_congr_left fun j _ => ?_
      rw [Nat.mod_add_mod, Function.comp_apply, Nat.add_right_comm, Nat.add_assoc, Nat.succ_eq_add_one]

/-- Up to a table's size, the indices of a request are distinct. -/
theorem wrapped_nodup (first : Nat) {n size : Nat} (h : n ≤ size) : ((List.range n).map fun j => (first + j) % size).Nodup := by
  refine (List.nodup_map_iff_inj_on List.nodup_range).mpr fun i hi j hj hij => ?_
  rw [List.mem_range] at hi hj
  exact (Nat.ModEq.add_left_cancel' first hij).eq_of_lt_of_lt (hi.trans_le h) (hj.trans_le h)

theorem length_writeAt {α : Type} (table : List α) (is : List Nat) (vs : List α) :
    (writeAt table is vs).length = table.length := by
  induction table, is, vs using writeAt.induct with
  | case1 table i is v vs ih => rw [writeAt, ih, List.length_set]
  | case2 vs table is hend => rw [writeAt]; exact hend

/-- What holds of every entry of a table, and of every value written, holds of every entry after the write. -/
theorem writeAt_forall {α : Type} {P : Nat → α → Prop} (table : List α) (is : List Nat) (vs : List α)
    (hvalues : ∀ x ∈ is.zip vs, P x.1 x.2) (htable : ∀ i v, table[i]? = some v → P i v) :
    ∀ i v, (writeAt table is vs)[i]? = some v → P i v := by
  induction table, is, vs using writeAt.induct with
  | case1 table i is v vs ih =>
    rw [List.zip_cons_cons, List.forall_mem_cons] at hvalues
    rw [writeAt]
    refine ih hvalues.2 fun k w hk => ?_
    rw [List.getElem?_set] at hk
    split at hk
    · next hik =>
      split at hk
      · rw [← hik, ← Option.some.inj hk]
        exact hvalues.1
      · cases hk
    · exact htable k w hk
  | case2 vs table is hend => rw [writeAt]; exacts [htable, hend]

/-- An entry that is not named stands (R101). -/
theorem getElem?_writeAt_of_notMem {α : Type} (table : List α) (is : List Nat) (vs : List α) {k : Nat} (h : k ∉ is) :
    (writeAt table is vs)[k]? = table[k]? := by
  induction table, is, vs using writeAt.induct with
  | case1 table i is v vs ih =>
    rw [List.mem_cons, not_or] at h
    rw [writeAt, ih h.2, List.getElem?_set_ne (Ne.symm h.1)]
  | case2 vs table is hend => rw [writeAt]; exact hend

/-- At distinct indices, each entry named takes its value (R101). -/
theorem getElem?_writeAt {α : Type} (table : List α) (is : List Nat) (vs : List α) (hdistinct : is.Nodup)
    (hlength : is.length = vs.length) {j i : Nat} (hj : is[j]? = some i) (hi : i < table.length) :
    (writeAt table is vs)[i]? = vs[j]? := by
  induction table, is, vs using writeAt.induct generalizing j with
  | case1 table k is v vs ih =>
    rw [List.nodup_cons] at hdistinct
    rw [writeAt]
    cases j with
    | zero =>
      obtain rfl : k = i := by simpa using hj
      rw [getElem?_writeAt_of_notMem _ _ _ hdistinct.1, List.getElem?_set_self hi, List.getElem?_cons_zero]
    | succ j => exact ih hdistinct.2 (by simpa using hlength) (by simpa using hj) (by simpa using hi)
  | case2 vs table is hend =>
    cases is with
    | nil => simp at hj
    | cons k is =>
      cases vs with
      | nil => simp at hlength
      | cons v vs => exact (hend k is v vs rfl rfl).elim

/-- The staged copy that a write leaves has every field in its range, as the one before it (R100, R101). -/
theorem tablesInRange_stagedWith {name : TableName} {old new : Tables} {indices : List Nat} {entries : List Byte}
    (h : tablesInRange old = true) (hnew : stagedWith name old indices entries = some new) : tablesInRange new = true := by
  rw [tablesInRange_iff] at h ⊢
  obtain ⟨hroute, ⟨hcurve, hpoints⟩, hprofile, hfields⟩ := h
  cases name with
  | route =>
    obtain ⟨es, -, rfl⟩ := Option.map_eq_some_iff.mp hnew
    exact ⟨(length_writeAt _ _ _).trans hroute, ⟨hcurve, hpoints⟩, hprofile, hfields⟩
  | curve =>
    obtain ⟨hvalues, hnew⟩ := Option.ite_none_right_eq_some.mp hnew
    obtain rfl := Option.some.inj hnew
    refine ⟨hroute, ⟨(length_writeAt _ _ _).trans hcurve, fun v hv => ?_⟩, hprofile, hfields⟩
    obtain ⟨i, hi⟩ := List.mem_iff_getElem?.mp hv
    refine writeAt_forall (P := fun _ v => v ≤ 32768) _ _ _ (fun x hx => ?_) (fun _ _ hk => hpoints _ (List.mem_of_getElem? hk)) i v hi
    exact of_decide_eq_true (List.all_eq_true.mp hvalues _ (List.of_mem_zip hx).2)
  | profile =>
    obtain ⟨hvalues, hnew⟩ := Option.ite_none_right_eq_some.mp hnew
    obtain rfl := Option.some.inj hnew
    have hlength := (length_writeAt old.profile indices (wordsOf entries)).trans hprofile
    have hfield : ∀ {l : List Nat} {i : Nat}, i < l.length → l[i]? = some (l.getD i 0) := fun hi => by
      rw [List.getD_eq_getElem _ _ hi, List.getElem?_eq_getElem hi]
    refine ⟨hroute, ⟨hcurve, hpoints⟩, hlength, fun i hi => ?_⟩
    refine writeAt_forall (P := fun i v => profileInRange i v = true) _ _ _ (fun x hx => List.all_eq_true.mp hvalues x hx)
      (fun k v hk => ?_) i _ (hfield (by omega))
    obtain ⟨hklt, -⟩ := List.getElem?_eq_some_iff.mp hk
    rw [hfield hklt] at hk
    rw [← Option.some.inj hk]
    exact hfields k (by omega)

end Sys2Proof.Machine

/-! ### The tables and the delays stay in range (R43, R99, R100, R102) -/

namespace Sys2Proof.Machine

/-- The guard delay of tables in range is in its own (R100). -/
theorem guardDelay_range {t : Tables} (h : tablesInRange t = true) : 64 ≤ t.guardDelay ∧ t.guardDelay ≤ 1024 := by
  obtain ⟨-, -, -, hfields⟩ := (tablesInRange_iff t).mp h
  exact of_decide_eq_true (hfields 21 (by decide))

/-- The tables and the delays are sound together: an adoption and a recentre lean on both. -/
abbrev State.TablesAndDelays (s : State) : Prop :=
  s.TablesSound ∧ s.DelaysInRange

theorem guardOk_of_tablesSound {s : State} (h : s.TablesSound) : s.GuardOk :=
  ⟨guardDelay_range h.1, guardDelay_range h.2.1⟩

/-- An operation that keeps the live tables or adopts valid staged ones, leaves staged tables in range, keeps the delays of the
alignment record in range, and leaves those the program span is read with. -/
theorem tablesAndDelays_of_frame {s t : State} (h : s.TablesAndDelays) (hlive : s.LiveStep t)
    (hstaged : tablesInRange t.tables.staged = true) (hdelays : s.GuardOk → s.AlignDelaysOk → t.AlignDelaysOk)
    (hread : t.mixer.delays = s.mixer.delays) : t.TablesAndDelays := by
  obtain ⟨htables, ⟨halignA, hreadA⟩, halignB, hreadB⟩ := h
  have halign : t.AlignDelaysOk := hdelays (guardOk_of_tablesSound htables) fun p => by
    cases p
    · exact halignA
    · exact halignB
  refine ⟨?_, ⟨halign .a, by rw [hread]; exact hreadA⟩, halign .b, by rw [hread]; exact hreadB⟩
  obtain ⟨hrange, hold, hcurves, hthresholds⟩ := htables
  unfold State.TablesSound
  obtain hsame | ⟨hadopted, hcurves', hthresholds', -⟩ := hlive
  · rw [hsame]; exact ⟨hrange, hstaged, hcurves, hthresholds⟩
  · rw [hadopted]; exact ⟨hold, hstaged, hcurves', hthresholds'⟩

theorem tablesAndDelays_of_control {s t : State} (hf : ControlFrame s t) (h : s.TablesAndDelays) : t.TablesAndDelays :=
  tablesAndDelays_of_frame h hf.live (by rw [hf.staged]; exact h.1.2.1) hf.delays hf.readDelays

theorem tablesAndDelays_of_lane {p : Port} {s t : State} (hf : LaneFrame p s t) (h : s.TablesAndDelays) : t.TablesAndDelays := by
  rw [hf.rest]
  exact h

/-- Every block at its reset value around valid tables: both copies are those tables, and every delay is their G (R56, R98, R111). -/
theorem tablesAndDelays_fresh {t : Tables} (hrange : tablesInRange t = true) (hcurves : curvesShaped t = true)
    (hthresholds : thresholdsOrdered t = true) (q : List Instr) (r : Rate) (x : InputLines) (l : LockRecord) (c : Option StoredCopy)
    (rs : List EventRecord) (n : Nat) : (State.fresh q r x t l c rs n).TablesAndDelays := by
  have hguard : 64 ≤ t.guardDelay ∧ t.guardDelay ≤ 2016 := by
    have := guardDelay_range hrange
    omega
  exact ⟨⟨hrange, hrange, hcurves, hthresholds⟩, ⟨hguard, hguard⟩, hguard, hguard⟩

/-- The factory tables are valid (R82, R88, R100). -/
theorem factoryTables_valid :
    tablesInRange factoryTables = true ∧ curvesShaped factoryTables = true ∧ thresholdsOrdered factoryTables = true := by
  decide +kernel

/-- What a start-up loads is valid: the store's contents by the judgement of R150, or the factory tables. -/
theorem loadedTables_valid (copy : Option StoredCopy) :
    tablesInRange (loadedTables (loadable copy)) = true ∧ curvesShaped (loadedTables (loadable copy)) = true
      ∧ thresholdsOrdered (loadedTables (loadable copy)) = true := by
  unfold loadable
  split
  · next c =>
    split
    · next hvalid =>
      simp only [storeValid, Bool.and_eq_true] at hvalid
      obtain ⟨⟨⟨-, hrange⟩, hcurves⟩, hthresholds⟩ := hvalid
      exact ⟨hrange, hcurves, hthresholds⟩
    · exact factoryTables_valid
  · exact factoryTables_valid

/-- A WRITE leaves a staged copy in range, whatever test it meets (R101). -/
theorem doWrite_staged (table : Byte) (first : Nat) (entries : List Byte) {s : State} (h : tablesInRange s.tables.staged = true) :
    tablesInRange (doWrite table first entries s).state.tables.staged = true := by
  unfold doWrite
  split
  · exact h
  · dsimp only
    split
    · exact h
    · split
      · exact h
      · split
        · exact h
        · next hnew =>
          split
          · exact h
          · exact tablesInRange_stagedWith h hnew

/-- A request leaves the staged copy, writes values in range into it, or restores it from the live one (R101, R107). -/
theorem runVerb_staged (verb : Byte) (operands : List Byte) {s : State} (hlive : tablesInRange s.tables.live = true)
    (h : tablesInRange s.tables.staged = true) : tablesInRange (runVerb verb operands s).state.tables.staged = true := by
  refine runVerb_of (P := fun a => tablesInRange a.state.tables.staged = true) verb operands s ?_ ?_ ?_ ?_ ?_ ?_ ?_ ?_ ?_ ?_ ?_ ?_ ?_ h
  · unfold verbState; split <;> exact h
  · unfold verbRead; split
    · unfold doRead; split
      · exact h
      · split
        · exact h
        · split <;> exact h
    · exact h
  · unfold verbWrite; split
    · exact doWrite_staged _ _ _ h
    · exact h
  · unfold verbApply; split
    · unfold doApply; split
      · exact h
      · split <;> exact h
    · exact h
  · unfold verbDiscard; split
    · exact hlive
    · exact h
  · unfold verbSwitch; split
    · unfold doSwitch; split
      · exact (frame_decideSwitch _ _ s).staged.symm ▸ h
      · exact h
    · exact h
  · unfold verbAuto; split
    · unfold doAuto; split
      · exact h
      · split
        · exact h
        · split
          · exact (frame_setAuto s).staged.symm ▸ h
          · split <;> exact h
    · exact h
  · unfold verbLock; split
    · unfold doLock; split
      · exact h
      · split <;> exact h
    · exact h
  · unfold verbEvents; split <;> exact h
  · unfold verbFlush; split <;> exact h
  · unfold verbSave; split
    · unfold doSave; split <;> exact h
    · exact h
  · unfold verbCounters; split
    · unfold doCounters; split
      · dsimp only; split <;> exact h
      · exact h
    · exact h
  · unfold verbIdent; split <;> exact h

theorem serveUpTo_staged (n : Nat) {s : State} (hlive : tablesInRange s.tables.live = true) (h : tablesInRange s.tables.staged = true) :
    tablesInRange (serveUpTo n s).tables.staged = true := by
  induction n generalizing s with
  | zero => exact h
  | succ n ih =>
    unfold serveUpTo
    split
    · exact h
    · next p _ =>
      refine ih (by rw [(engine_serveRequest p s).live]; exact hlive) ?_
      unfold serveRequest executeRequest
      split
      · exact runVerb_staged (s := takeRequest p s) _ _ hlive h
      · exact h

theorem tablesAndDelays_runEngine {s : State} (h : s.TablesAndDelays) : (runEngine s).TablesAndDelays := by
  have hf := engine_runEngine s
  exact tablesAndDelays_of_frame h (.inl hf.live) (serveUpTo_staged _ h.1.1 h.1.2.1) (fun _ hd p => by rw [hf.align]; exact hd p)
    hf.readDelays

theorem tablesAndDelays_closeWindow (p : Port) {s : State} (h : s.TablesAndDelays) : (closeWindow p s).TablesAndDelays := by
  obtain ⟨t, hf, he⟩ := closeWindow_frame p s
  have ht : t.TablesAndDelays := tablesAndDelays_of_frame h hf.live (by rw [hf.staged]; exact h.1.2.1) hf.delays hf.readDelays
  rw [he]
  exact ht

theorem tablesAndDelays_samplePanel (a b : Bool) {s : State} (h : s.TablesAndDelays) : (samplePanel a b s).TablesAndDelays := by
  have hpress : ∀ (c : Bool) (x : Port) (u : State), u.TablesAndDelays → (if c = true then press x u else u).TablesAndDelays :=
    fun c x u hu => ite_of (P := State.TablesAndDelays) (tablesAndDelays_of_control (frame_press x u) hu) hu
  exact hpress _ _ _ (hpress _ _ _ h)

/-- Each operation that the commands are made of keeps the tables and the delays sound. -/
theorem tablesAndDelays_kept : Kept State.TablesAndDelays where
  lines _ _ h := h
  pins _ _ h := h
  startUp k r s _ := by
    obtain ⟨hrange, hcurves, hthresholds⟩ := loadedTables_valid (interruptWrite s.store).copy
    exact tablesAndDelays_fresh hrange hcurves hthresholds _ _ _ _ _ _ _
  assertReset s h := by unfold assertReset; cases s.run <;> exact h
  losePower s _ := by
    obtain ⟨hrange, hcurves, hthresholds⟩ := factoryTables_valid
    exact tablesAndDelays_fresh hrange hcurves hthresholds s.pending s.rate s.pins openLock (interruptWrite s.store).copy [] s.free
  completeWrite v s h := by
    unfold completeWrite
    split
    · exact h
    · split <;> exact h
  enterStore _ _ _ h := h
  begin _ h := ⟨h.1, ⟨h.2.1.1, h.2.1.1⟩, h.2.2.1, h.2.2.1⟩
  sendReturn _ _ h := h
  sample s _ h := by
    have hf := sample_makeSample s
    exact tablesAndDelays_of_frame h hf.live (by rw [hf.staged]; exact h.1.2.1) hf.delays hf.readDelays
  window p _ h := tablesAndDelays_closeWindow p h
  panel a b _ h := tablesAndDelays_samplePanel a b h
  engine _ h := tablesAndDelays_runEngine h
  scheduled s h := tablesAndDelays_of_control (frame_answerScheduled s) h
  now s h := tablesAndDelays_of_control (frame_answerNow s) h
  table s h := tablesAndDelays_of_control (frame_tableSpanStart s) h
  record b s h := tablesAndDelays_of_control (frame_recordAdoption b s) h
  early _ _ h := h
  markSwitch m s h := tablesAndDelays_of_control (frame_controllerMark m s) h
  markApply m s h := tablesAndDelays_of_control (frame_tableMark m s) h
  offer p m s h := tablesAndDelays_of_lane (lane_offerMessage p m s) h
  long p s h := tablesAndDelays_of_lane (lane_raiseMgmtError p .long s) h

/-- Settles O56: each operation that a command is made of keeps the tables and the delays sound (`Kept`), so every step does. -/
theorem everyStepKeepsTablesAndDelaysSound : Obligations.EveryStepKeepsTablesAndDelaysSound := by
  unfold Obligations.EveryStepKeepsTablesAndDelaysSound
  intro s t h hstep
  exact tablesAndDelays_kept.step (fun _ _ hs => hs) s t h hstep

end Sys2Proof.Machine

/-! ### Requests of table memory (R107, R127, R134) -/

namespace Sys2Proof.Machine

/-- A request served at once, with the answer that its verb gives in the state as it stands, when taking the request makes no difference
to the verb and the verb leaves the ports (R125 to R128). -/
theorem whileRunning_served {s : State} {p : Port} {tag verb : Byte} {operands : List Byte} {d : Answer} (hserve : s.CanServe p)
    (hlength : operands.length ≤ 94) (hverb : runVerb verb operands (s.taking p) = ⟨d.state.taking p, d.status, d.payload⟩)
    (hports : d.state.ports = s.ports) :
    whileRunning (submitRequest p (tag :: verb :: operands)) s = .next (s.served d.state p tag verb d.status d.payload) := by
  rw [whileRunning_of_running hserve.1, submitRequest_served hserve hlength hverb hports]

/-- Settles O47: the request is served at once, and its verb reads neither the apply record nor the lock record. -/
theorem discardRestoresTheStagedCopy : Obligations.DiscardRestoresTheStagedCopy := by
  unfold Obligations.DiscardRestoresTheStagedCopy
  intro s p tag hserve
  exact whileRunning_served (d := doDiscard s) hserve (by simp) rfl rfl

end Sys2Proof.Machine

/-! ### Validation in the rules' own terms (R88, R102, R114) -/

namespace Sys2Proof.Machine

theorem nonDecreasing_iff_isChain (l : List Nat) : nonDecreasing l = true ↔ l.IsChain (· ≤ ·) := by
  induction l using nonDecreasing.induct with
  | case1 x y rest ih => rw [nonDecreasing, Bool.and_eq_true, decide_eq_true_iff, ih, List.isChain_cons_cons]
  | case2 l hshort =>
    cases l with
    | nil => simp [nonDecreasing]
    | cons x rest =>
      cases rest with
      | nil => simp [nonDecreasing]
      | cons y rest => exact (hshort x y rest rfl).elim

theorem curvePoints_getElem? (t : Tables) (n i : Nat) :
    (t.curvePoints n)[i]? = if i < 65 then t.curve[65 * n + i]? else none := by
  rw [Tables.curvePoints, List.getElem?_take, List.getElem?_drop]

/-- The shape of curve n, read off the CURVE table (R88, R102). -/
theorem curveShape_curvePoints (t : Tables) (n : Nat) :
    curveShape (t.curvePoints n) = true ↔ t.curve[65 * n]? = some 0 ∧ t.curve[65 * n + 64]? = some 32768
      ∧ ∀ i : Fin 64, t.curve.getD (65 * n + i.val) 0 ≤ t.curve.getD (65 * n + i.val + 1) 0 := by
  have hfirst : (t.curvePoints n).getD 0 1 = 0 ↔ t.curve[65 * n]? = some 0 := by
    rw [List.getD_eq_getElem?_getD, curvePoints_getElem?]
    cases hpoint : t.curve[65 * n]? <;> simp
  have hlast : (t.curvePoints n).getD 64 0 = 32768 ↔ t.curve[65 * n + 64]? = some 32768 := by
    rw [List.getD_eq_getElem?_getD, curvePoints_getElem?]
    cases hpoint : t.curve[65 * n + 64]? <;> simp
  rw [curveShape, Bool.and_eq_true, Bool.and_eq_true, beq_iff_eq, beq_iff_eq, hfirst, hlast, and_assoc]
  refine and_congr_right fun _ => and_congr_right fun hend => ?_
  obtain ⟨hwhole, -⟩ := List.getElem?_eq_some_iff.mp hend
  have hlength : (t.curvePoints n).length = 65 := by
    rw [Tables.curvePoints, List.length_take, List.length_drop]
    omega
  have hpoint : ∀ i (h : i < (t.curvePoints n).length), (t.curvePoints n)[i] = t.curve.getD (65 * n + i) 0 := fun i h => by
    rw [List.getD_eq_getElem _ _ (by omega)]
    simp [Tables.curvePoints]
  rw [nonDecreasing_iff_isChain, List.isChain_iff_getElem]
  constructor
  · intro hrise i
    have hi := hrise i.val (by omega)
    rwa [hpoint, hpoint] at hi
  · intro hrise i hi
    rw [hpoint, hpoint]
    exact hrise ⟨i, by omega⟩

theorem curvesShaped_iff (t : Tables) :
    curvesShaped t = true ↔ ∀ n : Fin 4, t.curve[65 * n.val]? = some 0 ∧ t.curve[65 * n.val + 64]? = some 32768
      ∧ ∀ i : Fin 64, t.curve.getD (65 * n.val + i.val) 0 ≤ t.curve.getD (65 * n.val + i.val + 1) 0 := by
  simp only [curvesShaped, List.all_eq_true, List.mem_range, curveShape_curvePoints]
  exact ⟨fun h n => h n n.isLt, fun h n hn => h ⟨n, hn⟩⟩

/-- The lock refuses exactly a staged copy that differs from the live one in what an engaged lock holds (R114). -/
theorem lockCondition_eq_false_iff (l : LockRecord) (live staged : Tables) :
    lockCondition l live staged = false ↔ lockEngaged l = true
      ∧ ((∃ k : Fin 64, channelLocked l k.val = true ∧ staged.route[k.val]? ≠ live.route[k.val]?)
        ∨ staged.curve ≠ live.curve ∨ staged.profile ≠ live.profile) := by
  have hroute : ((List.range 64).all fun k => !channelLocked l k || routeAgrees live staged k) = false
      ↔ ∃ k : Fin 64, channelLocked l k.val = true ∧ staged.route[k.val]? ≠ live.route[k.val]? := by
    rw [List.all_eq_false]
    constructor
    · rintro ⟨k, hk, hdiffers⟩
      exact ⟨⟨k, List.mem_range.mp hk⟩, by simpa [routeAgrees] using hdiffers⟩
    · rintro ⟨k, hdiffers⟩
      exact ⟨k, List.mem_range.mpr k.isLt, by simpa [routeAgrees] using hdiffers⟩
  unfold lockCondition
  rw [Bool.or_eq_false_iff, Bool.and_eq_false_iff, Bool.and_eq_false_iff, hroute, Bool.not_eq_false', beq_eq_false_iff_ne,
    beq_eq_false_iff_ne, or_assoc]

/-- Validation answers the first condition of R102 that fails. -/
theorem validate_eq (tm : TableMemory) :
    validate tm =
      if ¬∀ n : Fin 4, tm.staged.curve[65 * n.val]? = some 0 ∧ tm.staged.curve[65 * n.val + 64]? = some 32768
          ∧ ∀ i : Fin 64, tm.staged.curve.getD (65 * n.val + i.val) 0 ≤ tm.staged.curve.getD (65 * n.val + i.val + 1) 0
      then some .badCurve
      else if ¬(tm.staged.tOk < tm.staged.tWarn ∧ tm.staged.tWarn ≤ tm.staged.tFail) then some .badProfile
      else if lockEngaged tm.lock = true
          ∧ ((∃ k : Fin 64, channelLocked tm.lock k.val = true ∧ tm.staged.route[k.val]? ≠ tm.live.route[k.val]?)
            ∨ tm.staged.curve ≠ tm.live.curve ∨ tm.staged.profile ≠ tm.live.profile) then some .locked
      else none := by
  have hnot : ∀ {b : Bool} {P : Prop}, (b = true ↔ P) → ((!b) = true ↔ ¬P) := fun h => by
    rw [Bool.not_eq_true', ← h, Bool.not_eq_true]
  unfold validate
  refine if_congr (hnot (curvesShaped_iff tm.staged)) rfl (if_congr (hnot decide_eq_true_iff) rfl (if_congr ?_ rfl rfl))
  rw [Bool.not_eq_true', lockCondition_eq_false_iff]

/-- The trigger test of APPLY comes first, then validation, and a record is created only when both pass (R103, R133). -/
theorem doApply_eq (trigger song : Byte) (s : State) :
    doApply trigger song s = match triggerOfCode trigger song with
      | none => ⟨s, .badValue, []⟩
      | some trig => match validate s.tables with
        | some status => ⟨s, status, []⟩
        | none => ⟨{ s with tables := { s.tables with apply := some ⟨trig, .waiting⟩ },
                            mixer := { s.mixer with owedApply := false } }, .pending, []⟩ := by
  unfold doApply
  cases triggerOfCode trigger song with
  | none => rfl
  | some trig => cases validate s.tables <;> rfl

/-- Settles O46: the request is served at once, and validation is `validate_eq`, condition by condition. -/
theorem applyValidatesBeforeItWaits : Obligations.ApplyValidatesBeforeItWaits := by
  unfold Obligations.ApplyValidatesBeforeItWaits
  intro s p tag trigger song hserve
  have hserved : ∀ {u : State} {status : Status}, doApply trigger song (s.taking p) = ⟨u.taking p, status, []⟩ →
      u.ports = s.ports → exec (.apply p tag [trigger, song]) s = .next (s.served u p tag 0x04 status []) :=
    fun {u status} hverb hports => whileRunning_served (d := ⟨u, status, []⟩) hserve (by simp) hverb hports
  have htables : (s.taking p).tables = s.tables := rfl
  rw [doApply_eq, htables, validate_eq] at hserved
  cases htrigger : triggerOfCode trigger song with
  | none =>
    rw [htrigger] at hserved
    exact hserved rfl rfl
  | some trig =>
    rw [htrigger] at hserved
    dsimp only at hserved ⊢
    split_ifs at hserved ⊢
    all_goals exact hserved rfl rfl

end Sys2Proof.Machine

/-! ### WRITE and READ of table entries (R100, R101, R113, R131, R132; 11.3) -/

namespace Sys2Proof.Machine

/-! #### Fields of a request as bytes and as values -/

/-- The two-byte field at index j of a string of them (00_scope, 5). -/
def wordAt (entries : List Byte) (j : Nat) : Nat :=
  (entries.getD (2 * j) 0).toNat * 256 + (entries.getD (2 * j + 1) 0).toNat

theorem natOfBytes_two (hi lo : Byte) : natOfBytes [hi, lo] = hi.toNat * 256 + lo.toNat := by
  simp [natOfBytes]

theorem bytesOfNat_two (hi lo : Byte) : bytesOfNat 2 (hi.toNat * 256 + lo.toNat) = [hi, lo] := by
  have hlo : lo.toNat < 256 := lo.isLt
  have hquot : (hi.toNat * 256 + lo.toNat) / 256 = hi.toNat := by omega
  have hlow : BitVec.ofNat 8 (hi.toNat * 256 + lo.toNat) = lo :=
    BitVec.eq_of_toNat_eq (by rw [BitVec.toNat_ofNat]; omega)
  simp [bytesOfNat, hquot, hlow]

theorem wordsOf_eq (entries : List Byte) : wordsOf entries = (List.range (entries.length / 2)).map (wordAt entries) := by
  induction entries using wordsOf.induct with
  | case1 hi lo rest ih =>
    have hlength : (hi :: lo :: rest).length / 2 = rest.length / 2 + 1 := by simp only [List.length_cons]; omega
    rw [wordsOf, hlength, List.range_succ_eq_map, List.map_cons, List.map_map, ih, natOfBytes_two]
    rfl
  | case2 entries hshort =>
    rcases entries with - | ⟨hi, - | ⟨lo, rest⟩⟩
    · rfl
    · simp [wordsOf]
    · exact (hshort hi lo rest rfl).elim

/-- The ROUTE entry that the four bytes at index j of a string of them code, if they code one (11.3). -/
def routeAt (entries : List Byte) (j : Nat) : Option RouteEntry :=
  routeEntryOf (entries.getD (4 * j) 0) (entries.getD (4 * j + 1) 0) (entries.getD (4 * j + 2) 0) (entries.getD (4 * j + 3) 0)

/-- A ROUTE write is in range when each of its fours of bytes codes an entry (R101). -/
theorem routeEntriesOf_eq_some_iff (entries : List Byte) (es : List RouteEntry) :
    routeEntriesOf entries = some es ↔ (List.range (entries.length / 4)).map (routeAt entries) = es.map some := by
  have hfour : ∀ (c a b k : Byte) (rest : List Byte),
      (List.range ((c :: a :: b :: k :: rest).length / 4)).map (routeAt (c :: a :: b :: k :: rest))
        = routeEntryOf c a b k :: (List.range (rest.length / 4)).map (routeAt rest) := fun c a b k rest => by
    have hlength : (c :: a :: b :: k :: rest).length / 4 = rest.length / 4 + 1 := by simp only [List.length_cons]; omega
    rw [hlength, List.range_succ_eq_map, List.map_cons, List.map_map]
    rfl
  induction entries using routeEntriesOf.induct generalizing es with
  | case1 c a b k rest e tail hrest hentry ih =>
    have htail := (ih tail).mp hrest
    rw [hfour, htail, hentry, routeEntriesOf, hentry, hrest, Option.some_inj, ← List.map_cons,
      (List.map_injective_iff.mpr (Option.some_injective _)).eq_iff]
  | case2 c a b k rest hnone ih =>
    rw [hfour, routeEntriesOf]
    constructor
    · intro h
      split at h
      · next e tail hentry hrest => exact (hnone e tail hentry hrest).elim
      · cases h
    · intro h
      cases es with
      | nil => cases h
      | cons e tail =>
        obtain ⟨hentry, hrest⟩ := List.cons.inj h
        exact (hnone e tail hentry ((ih tail).mpr hrest)).elim
  | case3 entries hshort =>
    rcases entries with - | ⟨c, - | ⟨a, - | ⟨b, - | ⟨k, rest⟩⟩⟩⟩
    · simp [routeEntriesOf]
    · simp [routeEntriesOf]
    · simp [routeEntriesOf]
    · simp [routeEntriesOf]
    · exact (hshort c a b k rest rfl).elim

theorem slotOfByte_isSome (b : Byte) : (slotOfByte b).isSome = true ↔ b.toNat < 64 ∨ b = 0xFF := by
  unfold slotOfByte
  split
  · next h => simp [h]
  · next h => split <;> simp_all

theorem slotCode_of_slotOfByte {b : Byte} {slot : Option (Fin 64)} (h : slotOfByte b = some slot) : slotCode slot = b := by
  unfold slotOfByte at h
  split at h
  · obtain rfl := Option.some.inj h
    exact BitVec.ofNat_toNat 8 b
  · split at h
    · next hnone =>
      obtain rfl := Option.some.inj h
      exact hnone.symm
    · cases h

theorem classOfCode_isSome (n : Nat) : (classOfCode n).isSome = true ↔ n ≤ 5 := by
  match n with
  | 0 | 1 | 2 | 3 | 4 | 5 => decide
  | n + 6 => simp [classOfCode]

theorem classCode_of_classOfCode {b : Byte} {cls : RouteClass} (h : classOfCode b.toNat = some cls) : classCode cls = b := by
  refine BitVec.eq_of_toNat_eq ?_
  generalize b.toNat = n at h ⊢
  unfold classOfCode at h
  split at h <;> cases h <;> rfl

/-- The four fields of a ROUTE entry that a request may write (R100; 11.3). -/
theorem routeEntryOf_isSome (cls slotA slotB curve : Byte) :
    (routeEntryOf cls slotA slotB curve).isSome = true ↔ cls.toNat ≤ 5 ∧ (slotA.toNat < 64 ∨ slotA = 0xFF)
      ∧ (slotB.toNat < 64 ∨ slotB = 0xFF) ∧ curve.toNat ≤ 3 := by
  have hcurve : (curveOfByte curve).isSome = true ↔ curve.toNat ≤ 3 := by
    unfold curveOfByte
    split <;> simp <;> omega
  rw [← classOfCode_isSome, ← slotOfByte_isSome, ← slotOfByte_isSome, ← hcurve]
  unfold routeEntryOf
  cases classOfCode cls.toNat <;> cases slotOfByte slotA <;> cases slotOfByte slotB <;> cases curveOfByte curve <;> simp

/-- A ROUTE entry reads as the bytes it was written with (11.3). -/
theorem routeEntryBytes_of_routeEntryOf {cls slotA slotB curve : Byte} {e : RouteEntry}
    (h : routeEntryOf cls slotA slotB curve = some e) : routeEntryBytes e = [cls, slotA, slotB, curve] := by
  unfold routeEntryOf at h
  split at h
  · next c a b k hclass hA hB hcurve =>
    obtain rfl := Option.some.inj h
    have hk : byteOf k.val = curve := by
      unfold curveOfByte at hcurve
      split at hcurve
      · obtain rfl := Option.some.inj hcurve
        exact BitVec.ofNat_toNat 8 curve
      · cases hcurve
    rw [routeEntryBytes, classCode_of_classOfCode hclass, slotCode_of_slotOfByte hA, slotCode_of_slotOfByte hB, hk]
  · cases h

/-- A run of a byte string, byte by byte. -/
theorem take_drop_eq_map {entries : List Byte} {k w : Nat} (h : k + w ≤ entries.length) :
    (entries.drop k).take w = (List.range w).map fun i => entries.getD (k + i) 0 := by
  refine List.ext_getElem (by simp; omega) fun i hi _ => ?_
  rw [List.length_take, List.length_drop] at hi
  simp [List.getElem?_eq_getElem (show k + i < entries.length by omega)]

end Sys2Proof.Machine

/-! #### The value test of a WRITE, and what it leaves (R100, R101) -/

namespace Sys2Proof.Machine

/-- The least and the largest value of PROFILE field i, for the fields that take every value between them (R100). -/
def profileBounds (i : Nat) : Nat × Nat :=
  if i ∈ [7, 8, 9, 11, 22, 23, 24] then (1, 255) else if i = 10 then (0, 254) else if i = 14 ∨ i = 15 then (0, 1)
  else if i = 16 then (1, 65535) else if i = 17 ∨ i = 18 ∨ i = 19 then (0, 64) else if i = 20 then (0, 3)
  else if i = 21 then (64, 1024) else if i = 26 then (1, 5) else if i = 27 then (0, 65535) else (0, 255)

theorem profileInRange_iff {i : Nat} (h : i < 28) (v : Nat) :
    profileInRange i v = true ↔ (profileBounds i).1 ≤ v ∧ v ≤ (profileBounds i).2 ∧ ((i = 12 ∨ i = 13) → v < 64 ∨ v = 255) := by
  interval_cases i <;> simp [profileInRange, profileBounds]
  all_goals omega

/-- The fields of entry j of a WRITE that starts at index `first` are in their ranges (R100; 11.3). -/
def entryInRange (name : TableName) (first : Nat) (entries : List Byte) (j : Nat) : Prop :=
  match name with
  | .route => (entries.getD (4 * j) 0).toNat ≤ 5
      ∧ ((entries.getD (4 * j + 1) 0).toNat < 64 ∨ entries.getD (4 * j + 1) 0 = 0xFF)
      ∧ ((entries.getD (4 * j + 2) 0).toNat < 64 ∨ entries.getD (4 * j + 2) 0 = 0xFF)
      ∧ (entries.getD (4 * j + 3) 0).toNat ≤ 3
  | .curve => wordAt entries j ≤ 32768
  | .profile => (profileBounds ((first + j) % 28)).1 ≤ wordAt entries j ∧ wordAt entries j ≤ (profileBounds ((first + j) % 28)).2
      ∧ (((first + j) % 28 = 12 ∨ (first + j) % 28 = 13) → wordAt entries j < 64 ∨ wordAt entries j = 255)

theorem routeEntriesOf_isSome (entries : List Byte) :
    (routeEntriesOf entries).isSome = true ↔ ∀ j < entries.length / 4, (routeAt entries j).isSome = true := by
  rw [Option.isSome_iff_exists]
  constructor
  · rintro ⟨es, hes⟩ j hj
    have hmem : routeAt entries j ∈ es.map some := by
      rw [← (routeEntriesOf_eq_some_iff entries es).mp hes]
      exact List.mem_map_of_mem (List.mem_range.mpr hj)
    obtain ⟨e, -, he⟩ := List.mem_map.mp hmem
    exact Option.isSome_iff_exists.mpr ⟨e, he.symm⟩
  · intro h
    refine ⟨(List.range (entries.length / 4)).map fun j => (routeAt entries j).getD (factoryRouteEntry 0), ?_⟩
    rw [routeEntriesOf_eq_some_iff, List.map_map]
    refine List.map_congr_left fun j hj => ?_
    obtain ⟨e, he⟩ := Option.isSome_iff_exists.mp (h j (List.mem_range.mp hj))
    simp [he]

/-- The value test of a WRITE passes exactly when every field of every entry is in its range (R100, R101). -/
theorem stagedWith_isSome (name : TableName) (old : Tables) (first : Nat) (entries : List Byte) :
    (stagedWith name old ((List.range (entries.length / name.entryBytes)).map fun j => (first + j) % (name.lastIndex + 1))
        entries).isSome = true
      ↔ ∀ j < entries.length / name.entryBytes, entryInRange name first entries j := by
  cases name with
  | route =>
    refine (Bool.eq_iff_iff.mp Option.isSome_map).trans ((routeEntriesOf_isSome entries).trans ?_)
    exact forall₂_congr fun j _ => routeEntryOf_isSome _ _ _ _
  | curve =>
    have htest : (wordsOf entries).all (fun v => decide (v ≤ 32768)) = true
        ↔ ∀ j < entries.length / 2, wordAt entries j ≤ 32768 := by
      rw [wordsOf_eq]
      simp
    exact Option.isSome_ite.trans htest
  | profile =>
    have htest : ((((List.range (entries.length / 2)).map fun j => (first + j) % 28).zip (wordsOf entries)).all
          fun x => profileInRange x.1 x.2) = true
        ↔ ∀ j < entries.length / 2, profileInRange ((first + j) % 28) (wordAt entries j) = true := by
      rw [wordsOf_eq, List.zip_map']
      simp
    have hfields : (∀ j < entries.length / 2, profileInRange ((first + j) % 28) (wordAt entries j) = true)
        ↔ ∀ j < entries.length / 2, entryInRange .profile first entries j :=
      forall₂_congr fun j _ => profileInRange_iff (Nat.mod_lt _ (by decide)) _
    exact Option.isSome_ite.trans (htest.trans hfields)

/-- A table after a write, entry by entry as bytes: the entries named read as the bytes written, the others as before (R101). -/
theorem bytes_writeAt {α : Type} (bytes : α → List Byte) (d : α) {table vs : List α} {first n size width : Nat} {entries : List Byte}
    (hsize : table.length = size) (hpos : 0 < size) (hn : n ≤ size) (hvs : vs.length = n)
    (hbytes : ∀ j < n, bytes (vs.getD j d) = (entries.drop (width * j)).take width) :
    let new := writeAt table ((List.range n).map fun j => (first + j) % size) vs
    (∀ j < n, bytes (new.getD ((first + j) % size) d) = (entries.drop (width * j)).take width)
      ∧ ∀ k, (∀ j < n, (first + j) % size ≠ k) → bytes (new.getD k d) = bytes (table.getD k d) := by
  intro new
  constructor
  · intro j hj
    have hnamed : ((List.range n).map fun j => (first + j) % size)[j]? = some ((first + j) % size) := by simp [hj]
    rw [← hbytes j hj, List.getD_eq_getElem?_getD, List.getD_eq_getElem?_getD,
      getElem?_writeAt table _ vs (wrapped_nodup first hn) (by simp [hvs]) hnamed (by rw [hsize]; exact Nat.mod_lt _ hpos)]
  · intro k hk
    rw [List.getD_eq_getElem?_getD, List.getD_eq_getElem?_getD, getElem?_writeAt_of_notMem]
    simpa using hk

/-- A two-byte field reads as the bytes it was written with (11.3). -/
theorem bytesOfNat_wordsOf {entries : List Byte} {j : Nat} (h : j < entries.length / 2) :
    bytesOfNat 2 ((wordsOf entries).getD j 0) = (entries.drop (2 * j)).take 2 := by
  have hword : (wordsOf entries).getD j 0 = wordAt entries j := by
    rw [wordsOf_eq, List.getD_eq_getElem?_getD]
    simp [h]
  rw [hword, take_drop_eq_map (by omega)]
  exact bytesOfNat_two _ _

/-- A ROUTE entry of a write reads as the bytes it was written with (11.3). -/
theorem routeEntryBytes_routeEntriesOf {entries : List Byte} {es : List RouteEntry} (hes : routeEntriesOf entries = some es) {j : Nat}
    (h : j < entries.length / 4) : routeEntryBytes (es.getD j (factoryRouteEntry 0)) = (entries.drop (4 * j)).take 4 := by
  have hmap := congrArg (·[j]?) ((routeEntriesOf_eq_some_iff entries es).mp hes)
  simp only [List.getElem?_map, List.getElem?_range h, Option.map_some] at hmap
  obtain ⟨e, he, hentry⟩ := Option.map_eq_some_iff.mp hmap.symm
  rw [List.getD_eq_getElem?_getD, he, take_drop_eq_map (by omega)]
  exact routeEntryBytes_of_routeEntryOf hentry.symm

/-- What a WRITE that passes its tests leaves of the staged copy (R101). -/
structure Written (name : TableName) (old new : Tables) (first : Nat) (entries : List Byte) : Prop where
  route : name ≠ .route → new.route = old.route
  curve : name ≠ .curve → new.curve = old.curve
  profile : name ≠ .profile → new.profile = old.profile
  named : ∀ j < entries.length / name.entryBytes, tableEntryBytes new name ((first + j) % (name.lastIndex + 1))
    = (entries.drop (name.entryBytes * j)).take name.entryBytes
  others : ∀ k, (∀ j < entries.length / name.entryBytes, (first + j) % (name.lastIndex + 1) ≠ k) →
    tableEntryBytes new name k = tableEntryBytes old name k
  routeLength : new.route.length = old.route.length
  curveLength : new.curve.length = old.curve.length
  profileLength : new.profile.length = old.profile.length

theorem written_stagedWith {name : TableName} {old new : Tables} {first : Nat} {entries : List Byte} (hroute : old.route.length = 64)
    (hcurve : old.curve.length = 260) (hprofile : old.profile.length = 28) (hn : entries.length / name.entryBytes ≤ name.maxEntries)
    (hnew : stagedWith name old ((List.range (entries.length / name.entryBytes)).map fun j => (first + j) % (name.lastIndex + 1))
      entries = some new) : Written name old new first entries := by
  have hwords : (wordsOf entries).length = entries.length / 2 := by rw [wordsOf_eq]; simp
  cases name with
  | route =>
    obtain ⟨es, hes, rfl⟩ := Option.map_eq_some_iff.mp hnew
    have hlength := congrArg List.length ((routeEntriesOf_eq_some_iff entries es).mp hes)
    obtain ⟨hnamed, hothers⟩ := bytes_writeAt routeEntryBytes (factoryRouteEntry 0) (first := first) hroute (by decide)
      (hn.trans (by decide)) (by simpa [TableName.entryBytes] using hlength.symm) fun j hj => routeEntryBytes_routeEntriesOf hes hj
    exact ⟨fun h => absurd rfl h, fun _ => rfl, fun _ => rfl, hnamed, hothers, length_writeAt _ _ _, rfl, rfl⟩
  | curve =>
    obtain ⟨-, hnew⟩ := Option.ite_none_right_eq_some.mp hnew
    obtain rfl := Option.some.inj hnew
    obtain ⟨hnamed, hothers⟩ := bytes_writeAt (bytesOfNat 2) 0 (first := first) hcurve (by decide) (hn.trans (by decide)) hwords
      fun j hj => bytesOfNat_wordsOf hj
    exact ⟨fun _ => rfl, fun h => absurd rfl h, fun _ => rfl, hnamed, hothers, rfl, length_writeAt _ _ _, rfl⟩
  | profile =>
    obtain ⟨-, hnew⟩ := Option.ite_none_right_eq_some.mp hnew
    obtain rfl := Option.some.inj hnew
    obtain ⟨hnamed, hothers⟩ := bytes_writeAt (bytesOfNat 2) 0 (first := first) hprofile (by decide) (hn.trans (by decide)) hwords
      fun j hj => bytesOfNat_wordsOf hj
    exact ⟨fun _ => rfl, fun _ => rfl, fun h => absurd rfl h, hnamed, hothers, rfl, rfl, length_writeAt _ _ _⟩

/-! #### The tests of a WRITE in their order (R101, R113, R132) -/

/-- The lock test of a WRITE (R113). -/
theorem writeLocked_iff (l : LockRecord) (t : TableName) (indices : List Nat) :
    writeLocked l t indices = true ↔ lockEngaged l = true
      ∧ ((t = .route ∧ ∃ k ∈ indices, channelLocked l k = true) ∨ (t ≠ .route ∧ 0 < indices.length)) := by
  unfold writeLocked
  rw [Bool.and_eq_true]
  cases t <;> cases indices <;> simp

/-- WRITE, test by test, with the indices of R101. -/
theorem doWrite_eq (table : Byte) (first : Nat) (entries : List Byte) (s : State) :
    doWrite table first entries s = match tableOfCode table with
      | none => ⟨s, .badTable, []⟩
      | some t =>
        let n := entries.length / t.entryBytes
        let indices := (List.range n).map fun j => (first + j) % (t.lastIndex + 1)
        if t.lastIndex < first then ⟨s, .badIndex, []⟩
        else if entries.length % t.entryBytes ≠ 0 ∨ t.maxEntries < n then ⟨s, .badLength, []⟩
        else match stagedWith t s.tables.staged indices entries with
          | none => ⟨s, .badValue, []⟩
          | some staged =>
            if lockEngaged s.tables.lock = true
                ∧ ((t = .route ∧ ∃ k ∈ indices, channelLocked s.tables.lock k = true) ∨ (t ≠ .route ∧ 0 < n)) then ⟨s, .locked, []⟩
            else ⟨{ s with tables := { s.tables with staged := staged } }, .ok, []⟩ := by
  unfold doWrite
  cases tableOfCode table with
  | none => rfl
  | some t =>
    dsimp only
    by_cases hindex : t.lastIndex < first
    · rw [if_pos hindex, if_pos hindex]
      rfl
    · rw [if_neg hindex, if_neg hindex, indicesFrom_eq t (Nat.le_of_not_lt hindex)]
      refine if_congr Iff.rfl rfl ?_
      generalize stagedWith t _ _ _ = written
      cases written with
      | none => rfl
      | some staged =>
        refine if_congr ((writeLocked_iff _ _ _).trans ?_) rfl rfl
        rw [List.length_map, List.length_range]

/-- Settles O44: the request is served at once with the tests of `doWrite_eq`, and what passes them leaves what `Written` says. -/
theorem writeIsTestedInOrder : Obligations.WriteIsTestedInOrder := by
  unfold Obligations.WriteIsTestedInOrder
  constructor
  · intro s p tag table hi lo entries hserve hlength
    have hserved : ∀ {u : State} {status : Status},
        doWrite table (hi.toNat * 256 + lo.toNat) entries (s.taking p) = ⟨u.taking p, status, []⟩ → u.ports = s.ports →
        exec (.write p tag (table :: hi :: lo :: entries)) s = .next (s.served u p tag 0x03 status []) :=
      fun {u status} hverb hports => whileRunning_served (d := ⟨u, status, []⟩) hserve (by simp only [List.length_cons]; omega)
        (by rw [← natOfBytes_two] at hverb; exact hverb) hports
    have htables : (s.taking p).tables = s.tables := rfl
    rw [doWrite_eq, htables] at hserved
    cases htable : tableOfCode table with
    | none =>
      rw [htable] at hserved
      exact hserved rfl rfl
    | some t =>
      rw [htable] at hserved
      dsimp only at hserved ⊢
      generalize stagedWith t _ _ _ = written at hserved ⊢
      cases written
      all_goals
        dsimp only at hserved ⊢
        split_ifs at hserved ⊢
        all_goals exact hserved rfl rfl
  · intro name old first entries size n word slot bounds inRange hroute hcurve hprofile _ _ hn written
    have htest : written.isSome = true ↔ ∀ j < n, inRange j := stagedWith_isSome name old first entries
    refine ⟨?_, fun new hnew => ?_⟩
    · rw [← Option.not_isSome_iff_eq_none, htest]
      simp only [not_forall, exists_prop]
    · have h := written_stagedWith hroute hcurve hprofile hn hnew
      exact ⟨h.route, h.curve, h.profile, h.named, fun k _ => h.others k, h.routeLength.trans hroute, h.curveLength.trans hcurve,
        h.profileLength.trans hprofile⟩

end Sys2Proof.Machine

/-! #### What a WRITE has written is read back (R99, R101, R131) -/

namespace Sys2Proof.Machine

/-- A byte string is its runs of w bytes, one after the other. -/
theorem flatMap_runs (w n : Nat) {entries : List Byte} (h : entries.length = w * n) :
    ((List.range n).flatMap fun j => (entries.drop (w * j)).take w) = entries := by
  induction n generalizing entries with
  | zero => exact (List.eq_nil_of_length_eq_zero h).symm
  | succ n ih =>
    have hrest := ih (entries := entries.drop w) (by rw [List.length_drop, h, Nat.mul_succ]; omega)
    rw [List.range_succ_eq_map, List.flatMap_cons, List.flatMap_map]
    simp only [List.drop_drop] at hrest
    simp only [Nat.mul_zero, List.drop_zero, Nat.succ_eq_add_one, Nat.mul_add, Nat.mul_one, Nat.add_comm _ w]
    rw [hrest, List.take_append_drop]

/-- A READ of the staged copy that passes its tests returns its entries (R131). -/
theorem doRead_staged {table : Byte} {name : TableName} {first count : Nat} (s : State) (htable : tableOfCode table = some name)
    (hfirst : first ≤ name.lastIndex) (hcount : count ≤ name.maxEntries) :
    doRead table 0x01 first count s = ⟨s, .ok, BitVec.ofNat 8 count :: (List.range count).flatMap fun j =>
      tableEntryBytes s.tables.staged name ((first + j) % (name.lastIndex + 1))⟩ := by
  unfold doRead
  rw [htable]
  dsimp only
  rw [if_neg (Nat.not_lt_of_le hfirst)]
  show readEntries name true first count s = _
  unfold readEntries
  dsimp only
  rw [Nat.min_eq_left hcount, indicesFrom_eq name hfirst, List.flatMap_map]
  rfl

/-- A READ of the staged copy, served at once (R131). -/
theorem exec_read_staged {s : State} {p : Port} (tag : Byte) {table hi lo : Byte} {name : TableName} {n : Nat} (hserve : s.CanServe p)
    (htable : tableOfCode table = some name) (hfirst : hi.toNat * 256 + lo.toNat ≤ name.lastIndex) (hn : n ≤ name.maxEntries)
    (hbyte : n < 256) :
    exec (.read p tag [table, 0x01, hi, lo, BitVec.ofNat 8 n]) s
      = .next (s.served s p tag 0x02 .ok (BitVec.ofNat 8 n :: (List.range n).flatMap fun j =>
          tableEntryBytes s.tables.staged name ((hi.toNat * 256 + lo.toNat + j) % (name.lastIndex + 1)))) := by
  have hcount : (BitVec.ofNat 8 n).toNat = n := by rw [BitVec.toNat_ofNat]; exact Nat.mod_eq_of_lt hbyte
  have hoperands : doRead table 0x01 (natOfBytes [hi, lo]) (BitVec.ofNat 8 n).toNat (s.taking p)
      = doRead table 0x01 (hi.toNat * 256 + lo.toNat) n (s.taking p) := by
    rw [natOfBytes_two, hcount]
  exact whileRunning_served (d := ⟨s, .ok, _⟩) hserve (by simp)
    (hoperands.trans (doRead_staged (s.taking p) htable hfirst hn)) rfl

/-- What one WRITE may carry fits a request, and its count fits a byte (8.1; R101). -/
theorem entries_fit {name : TableName} {entries : List Byte} (hwhole : entries.length % name.entryBytes = 0)
    (hn : entries.length / name.entryBytes ≤ name.maxEntries) :
    entries.length = name.entryBytes * (entries.length / name.entryBytes) ∧ entries.length ≤ 91
      ∧ entries.length / name.entryBytes < 256 := by
  cases name <;> simp only [TableName.entryBytes, TableName.maxEntries] at hwhole hn ⊢ <;> omega

/-- Settles O45: the WRITE is served by O44, and the READ returns the entries that `Written` says it left, run by run. -/
theorem writeThenReadReturnsTheEntries : Obligations.WriteThenReadReturnsTheEntries := by
  unfold Obligations.WriteThenReadReturnsTheEntries
  intro s p q tag rtag table hi lo entries name staged first n hsound hserve hlock htable hfirst hwhole hn hstaged
  obtain ⟨hlength, hfits, hbyte⟩ := entries_fit hwhole hn
  have hexec := writeIsTestedInOrder.1 s p tag table hi lo entries hserve hfits
  rw [htable] at hexec
  dsimp only at hexec
  rw [if_neg (Nat.not_lt_of_le hfirst), if_neg (by omega), hstaged] at hexec
  dsimp only at hexec
  rw [if_neg (by simp [hlock])] at hexec
  refine ⟨_, hexec, rfl, fun hread => ?_⟩
  obtain ⟨-, hrange, -⟩ := hsound
  obtain ⟨hroute, ⟨hcurve, -⟩, hprofile, -⟩ := (tablesInRange_iff _).mp hrange
  have hnamed := (written_stagedWith hroute hcurve hprofile hn hstaged).named
  have hentries : ((List.range n).flatMap fun j => tableEntryBytes staged name ((first + j) % (name.lastIndex + 1))) = entries := by
    rw [← List.flatMap_congr fun j hj => (hnamed j (List.mem_range.mp hj)).symm]
    exact flatMap_runs _ _ hlength
  rw [exec_read_staged rtag hread htable hfirst hn hbyte]
  exact congrArg (fun l => Host.Outcome.next (State.served _ _ q rtag 0x02 .ok (BitVec.ofNat 8 n :: l))) hentries

end Sys2Proof.Machine

/-! ### No answer reads the output lines (R79, R147) -/

namespace Sys2Proof.Machine

/-- The state with these output lines. -/
def State.withLines (s : State) (l : OutputLines) : State :=
  { s with lines := l }

@[simp] theorem withLines_ctrl (s : State) (l : OutputLines) : (s.withLines l).ctrl = s.ctrl := rfl

@[simp] theorem withLines_mixer (s : State) (l : OutputLines) : (s.withLines l).mixer = s.mixer := rfl

@[simp] theorem withLines_live (s : State) (l : OutputLines) : (s.withLines l).live = s.live := rfl

@[simp] theorem withLines_ready (s : State) (l : OutputLines) (p : Port) : (s.withLines l).ready p = s.ready p := rfl

@[simp] theorem withLines_preferred (s : State) (l : OutputLines) : (s.withLines l).preferred = s.preferred := rfl

/-- An operation that neither reads nor writes the output lines. -/
def LinesBlind (f : State → State) : Prop :=
  ∀ (s : State) (l : OutputLines), f (s.withLines l) = (f s).withLines l

theorem LinesBlind.comp {f g : State → State} (hf : LinesBlind f) (hg : LinesBlind g) : LinesBlind fun s => f (g s) := fun s l => by
  show f (g _) = _
  rw [hg, hf]

theorem blind_setDegraded : LinesBlind setDegraded := fun s l => by
  unfold setDegraded
  rw [withLines_ctrl]
  split <;> rfl

theorem blind_openingRechoice (p : Port) : LinesBlind (openingRechoice p) := fun s l => by
  unfold openingRechoice openingChoice
  rw [withLines_ctrl, withLines_ready, withLines_preferred, withLines_ready]
  cases s.ctrl.scheduled with
  | none => split_ifs <;> rfl
  | some st =>
    dsimp only
    split_ifs <;> rfl

/-- What the controller does in a state m after a withdrawal, port y being the one not withdrawn (R69). -/
def withdrawnIn (m : Mode) (y : Port) (s : State) : State :=
  match m with
  | .idle => openingRechoice y s
  | .opening _ => s
  | .on x => if s.ready x then s else setDegraded s
  | .fade x => if s.ready x.other then s else setDegraded s

theorem withdrawStart_eq {s : State} {st : ScheduledStart} (h : s.ctrl.scheduled = some st) :
    withdrawStart s = withdrawnIn s.ctrl.mode st.target.other { s with ctrl := { s.ctrl with scheduled := none } } := by
  unfold withdrawStart
  rw [h]
  rfl

theorem blind_withdrawnIn (m : Mode) (y : Port) : LinesBlind (withdrawnIn m y) := fun s l => by
  have hjudged : ∀ x, (if (s.withLines l).ready x then s.withLines l else setDegraded (s.withLines l))
      = (if s.ready x then s else setDegraded s).withLines l := fun x => by
    rw [withLines_ready, blind_setDegraded]
    split <;> rfl
  cases m with
  | idle => exact blind_openingRechoice y s l
  | opening x => rfl
  | on x => exact hjudged x
  | fade x => exact hjudged x.other

theorem blind_withdrawStart : LinesBlind withdrawStart := fun s l => by
  cases hst : s.ctrl.scheduled with
  | none =>
    unfold withdrawStart
    rw [withLines_ctrl, hst]
  | some st =>
    rw [withdrawStart_eq hst, withdrawStart_eq (s := s.withLines l) hst]
    exact blind_withdrawnIn _ _ { s with ctrl := { s.ctrl with scheduled := none } } l

theorem blind_beginTransition (target : Port) (cause : SwitchCause) : LinesBlind (beginTransition target cause) := fun s l => by
  unfold beginTransition convertReversal
  dsimp only [offerEvent_ctrl]
  rw [withLines_ctrl, withLines_live]
  split
  · rcases s.ctrl.scheduled with - | ⟨- | - | -, y, c⟩ <;> rfl
  · rfl

theorem blind_takeScheduled : LinesBlind takeScheduled := fun s l => by
  have hbegun : ∀ st, LinesBlind (beginScheduled st) := fun st s l => by
    have hbegin := blind_beginTransition st.target st.cause { s with ctrl := { s.ctrl with scheduled := none } } l
    unfold beginScheduled
    rw [withLines_ready, blind_withdrawStart]
    split
    · exact hbegin
    · rfl
  have hreversed : ∀ x, LinesBlind (beginReversal x) := fun x s l => by
    unfold beginReversal
    rw [withLines_ready, blind_withdrawStart]
    split <;> rfl
  unfold takeScheduled
  rw [withLines_ctrl]
  cases s.ctrl.scheduled with
  | none => rfl
  | some st =>
    dsimp only
    split
    · cases st.action with
      | opening => exact hbegun st s l
      | fade => exact hbegun st s l
      | reversal => exact hreversed st.target s l
    · rfl

theorem blind_answerScheduled : LinesBlind answerScheduled := fun s l => by
  have htaken := blind_takeScheduled { s with mixer := { s.mixer with owedStart := false } } l
  unfold answerScheduled
  rw [withLines_mixer]
  dsimp only
  split
  · exact htaken
  · rfl

theorem blind_firePendingSwitch (r : PendingSwitch) : LinesBlind (firePendingSwitch r) := fun s l => by
  have hbegin := blind_beginTransition r.target r.cause { s with ctrl := { s.ctrl with pendingSwitch := none } } l
  unfold firePendingSwitch cancelPendingSwitch
  rw [withLines_ready, withLines_ctrl]
  split
  · exact hbegin
  · cases s.ctrl.pendingSwitch <;> rfl

theorem blind_answerNow : LinesBlind answerNow := fun s l => by
  have hmeets : ({ s.withLines l with mixer := { s.mixer with owedSwitch := false } } : State).switchAtSpanStart
      = ({ s with mixer := { s.mixer with owedSwitch := false } } : State).switchAtSpanStart := rfl
  unfold answerNow
  dsimp only [withLines_mixer]
  rw [hmeets]
  cases ({ s with mixer := { s.mixer with owedSwitch := false } } : State).switchAtSpanStart with
  | none => rfl
  | some r =>
    dsimp only
    split
    · exact blind_firePendingSwitch r { s with mixer := { s.mixer with owedSwitch := false } } l
    · rfl

theorem blind_controllerMark (m : MarkReport) : LinesBlind (controllerMark m) := fun s l => by
  have hmeets : (s.withLines l).switchAtMark m = s.switchAtMark m := rfl
  unfold controllerMark
  rw [hmeets]
  cases s.switchAtMark m with
  | none => rfl
  | some r => exact blind_firePendingSwitch r s l

end Sys2Proof.Machine

/-! ### The adoption and its record (R102, R104, R106) -/

namespace Sys2Proof.Machine

/-- Table memory after an adoption: the staged copy live when it is valid, and no apply record (R106). -/
def TableMemory.adopted (tm : TableMemory) : TableMemory :=
  { tm with live := if validate tm = none then tm.staged else tm.live, apply := none }

theorem adopt_eq (s : State) : adopt s = { s with tables := s.tables.adopted } := by
  unfold adopt TableMemory.adopted
  dsimp only
  cases validate s.tables <;> rfl

/-- A trigger met in a transition defers the record, and adopts otherwise (R104). -/
theorem meetApplyTrigger_eq {s : State} {r : ApplyRecord} (h : s.tables.apply = some r) :
    meetApplyTrigger s = { s with tables :=
      if s.ctrl.mode.isTransition = true then { s.tables with apply := some { r with phase := .deferred } } else s.tables.adopted } := by
  unfold meetApplyTrigger
  rw [h, adopt_eq]
  dsimp only
  split <;> rfl

theorem applyWaitsMark_of_none {s : State} (h : s.tables.apply = none) (song : Byte) : s.applyWaitsMark song = false := by
  unfold State.applyWaitsMark
  rw [h]

/-- A mark that meets no apply record leaves table memory alone (R104). -/
theorem tableMark_of_unwaited {m : MarkReport} {s : State} (h : s.applyWaitsMark m.song = false) : tableMark m s = s := by
  unfold tableMark
  rw [h]
  rfl

/-- An adoption made between two states is recorded (R106). -/
theorem recordAdoption_of_made {s t : State} (hs : s.tables.apply.isSome = true) (ht : t.tables.apply = none) :
    recordAdoption s t = offerEvent (adoptionRecord s.tables) t := by
  unfold recordAdoption
  rw [hs, ht]
  rfl

/-- With no apply record there is no adoption to record. -/
theorem recordAdoption_of_noRecord {s : State} (h : s.tables.apply = none) (t : State) : recordAdoption s t = t := by
  unfold recordAdoption
  rw [h]
  rfl

/-! #### What the pending switch record's answers leave (R71) -/

theorem firePendingSwitch_tables (r : PendingSwitch) (s : State) :
    (firePendingSwitch r s).tables = s.tables ∧ (firePendingSwitch r s).mixer = s.mixer := by
  unfold firePendingSwitch cancelPendingSwitch
  split
  · obtain ⟨hmixer, htables⟩ := beginTransition_mixer r.target r.cause { s with ctrl := { s.ctrl with pendingSwitch := none } }
    exact ⟨htables, hmixer⟩
  · cases s.ctrl.pendingSwitch <;> exact ⟨rfl, rfl⟩

theorem controllerMark_tables (m : MarkReport) (s : State) :
    (controllerMark m s).tables = s.tables ∧ (controllerMark m s).mixer = s.mixer := by
  unfold controllerMark
  split
  · exact firePendingSwitch_tables _ _
  · exact ⟨rfl, rfl⟩

theorem answerNow_tables (s : State) : (answerNow s).tables = s.tables := by
  unfold answerNow
  dsimp only
  split
  · split
    · exact (firePendingSwitch_tables _ _).1
    · rfl
  · rfl

/-- The state with this mixer. -/
def State.withMixer (s : State) (x : Mixer) : State :=
  { s with mixer := x }

/-- A transition begins alike whatever the mixer holds, the delays apart. -/
theorem beginTransition_withMixer {target : Port} {cause : SwitchCause} {s : State} {x : Mixer} (h : x.delays = s.mixer.delays) :
    beginTransition target cause (s.withMixer x) = (beginTransition target cause s).withMixer x := by
  have hposition := fun c : Controller => outputPosition_mixer (s := { s with ctrl := c }) h
  unfold beginTransition convertReversal
  dsimp only [State.live, State.withMixer, offerEvent_ctrl] at hposition ⊢
  rw [hposition]
  split
  · rcases s.ctrl.scheduled with - | ⟨- | - | -, y, c⟩ <;> rfl
  · rfl

/-- The controller answers a mark alike whatever the mixer holds, the delays apart. -/
theorem controllerMark_withMixer (m : MarkReport) {s : State} {x : Mixer} (h : x.delays = s.mixer.delays) :
    controllerMark m (s.withMixer x) = (controllerMark m s).withMixer x := by
  have hmeets : (s.withMixer x).switchAtMark m = s.switchAtMark m := rfl
  have hready : ∀ y, (s.withMixer x).ready y = s.ready y := fun _ => rfl
  have hctrl : (s.withMixer x).ctrl = s.ctrl := rfl
  unfold controllerMark
  rw [hmeets]
  cases s.switchAtMark m with
  | none => rfl
  | some r =>
    have hbegin := beginTransition_withMixer (target := r.target) (cause := r.cause)
      (s := { s with ctrl := { s.ctrl with pendingSwitch := none } }) h
    dsimp only
    unfold firePendingSwitch cancelPendingSwitch
    rw [hready]
    split
    · exact hbegin
    · rw [hctrl]
      cases s.ctrl.pendingSwitch <;> rfl

/-- The next sample ends no transition. -/
def State.FadeGoesOn (s : State) : Prop :=
  s.ctrl.mode.isTransition = true → s.ctrl.q + 1 ≠ s.ctrl.len

/-- A transition that has just begun lasts for a span at least (R59). -/
theorem fadeGoesOn_beginTransition (target : Port) (cause : SwitchCause) (s : State) :
    (beginTransition target cause s).FadeGoesOn := by
  unfold State.FadeGoesOn
  rw [beginTransition_mode]
  intro hfade
  have hspans : s.tables.live.fadeSpans cause ≠ 0 := fun hcut => by
    unfold enteredMode at hfade
    rw [if_pos hcut] at hfade
    cases hfade
  unfold beginTransition
  dsimp only [State.live]
  rw [if_neg hspans]
  show 0 + 1 ≠ 32 * s.tables.live.fadeSpans cause
  omega

/-- Outside transitions, the answer to a mark leaves no transition that the sample of that mark ends. -/
theorem fadeGoesOn_controllerMark (m : MarkReport) {s : State} (h : s.ctrl.mode.isTransition = false) :
    (controllerMark m s).FadeGoesOn := by
  have hsteady : ∀ t : State, t.ctrl.mode = s.ctrl.mode → t.FadeGoesOn := fun t ht hfade => by
    rw [ht, h] at hfade
    cases hfade
  unfold controllerMark
  split
  · unfold firePendingSwitch
    split
    · exact fadeGoesOn_beginTransition _ _ _
    · exact hsteady _ (cancelPendingSwitch_mode s)
  · exact hsteady s rfl

end Sys2Proof.Machine

/-! ### A met trigger of the pending apply record (R92, R104, R106, R109) -/

namespace Sys2Proof.Machine

/-! #### The mark of the next sample -/

/-- With a mark port, the mark of the sample is the one read on it (R93). -/
theorem sampleMark_of_markPort {s : State} {x : Port} {song : Byte} (hport : s.ctrl.mode.markPort = some x)
    (hearly : s.mixer.earlyMark = none) (hmark : s.markRead x = some song) : s.sampleMark = some ⟨x, song⟩ := by
  have hon := sampleMark_of_markRead (s := { s with ctrl := { s.ctrl with mode := .on x } }) rfl hearly hmark
  unfold State.sampleMark State.markNow at hon ⊢
  rw [hport]
  exact hon

/-- The controller's answer to the mark of the next sample, if that sample reports one (R71). -/
def State.markAnswered (s : State) : State :=
  match s.sampleMark with
  | some m => controllerMark m s
  | none => s

/-- The mixer once the mark of the next sample is noted (R95). -/
def State.notedMixer (s : State) : Mixer :=
  { s.mixer with earlyMark := none, firstMark := s.markAfter }

theorem noteMark_of_some {s : State} {m : MarkReport} (h : s.sampleMark = some m) :
    noteMark (s.withMixer { s.mixer with earlyMark := none }) = s.withMixer s.notedMixer := by
  have hfirst : s.markAfter = some (s.mixer.firstMark.getD s.clock.made) := by
    unfold State.markAfter
    rw [h]
    cases s.mixer.firstMark <;> rfl
  unfold State.notedMixer
  rw [hfirst]
  exact noteMark_eq _

/-- Step 2 of a sample whose mark meets no apply record (R92, R95). -/
theorem sampleStep2_of_unapplied {s : State} (h : ∀ m, s.sampleMark = some m → s.applyWaitsMark m.song = false) :
    sampleStep2 s = s.markAnswered.withMixer s.notedMixer := by
  unfold State.markAnswered
  cases hmark : s.sampleMark with
  | none =>
    have hfirst : s.markAfter = s.mixer.firstMark := by
      unfold State.markAfter
      rw [hmark]
      cases s.mixer.firstMark <;> rfl
    rw [sampleStep2_of_none hmark]
    unfold State.notedMixer
    rw [hfirst]
    rfl
  | some m =>
    have hnoted := noteMark_of_some hmark
    unfold State.withMixer at hnoted
    rw [sampleStep2_of_some hmark, answerMark, hnoted]
    refine Eq.trans (congrArg (tableMark m) (controllerMark_withMixer m (s := s) (x := s.notedMixer) rfl)) ?_
    refine tableMark_of_unwaited (Eq.trans ?_ (h m hmark))
    unfold State.applyWaitsMark State.withMixer
    rw [(controllerMark_tables m s).1]

/-- Step 2 of a sample whose mark finds no pending switch record (R92, R95). -/
theorem sampleStep2_of_unarmed {s : State} {m : MarkReport} (hmark : s.sampleMark = some m) (hswitch : s.ctrl.pendingSwitch = none) :
    sampleStep2 s = tableMark m (s.withMixer s.notedMixer) := by
  have hnoted := noteMark_of_some hmark
  unfold State.withMixer at hnoted
  rw [sampleStep2_of_some hmark, answerMark, hnoted]
  exact congrArg (tableMark m) (controllerMark_of_none m hswitch)

/-- A mark that the pending switch record does not meet (R71). -/
theorem controllerMark_of_unmet {m : MarkReport} {s : State} (h : s.switchAtMark m = none) : controllerMark m s = s := by
  unfold controllerMark
  rw [h]

theorem switchAtMark_of_none {s : State} (m : MarkReport) (h : s.ctrl.pendingSwitch = none) : s.switchAtMark m = none := by
  rw [switchAtMark_eq, armedSwitch_of_none h]
  exact ite_self _

/-- The state in which the pending switch record has fired at the mark of the next sample, if it meets that mark (log 3). -/
def State.firedAtMark (s : State) : State :=
  match s.sampleMark with
  | some m => if (s.switchAtMark m).isSome then keepMark m (controllerMark m s) else s
  | none => s

theorem firedAtMark_of_met {s : State} {m : MarkReport} {r : PendingSwitch} (hmark : s.sampleMark = some m)
    (hmeets : s.switchAtMark m = some r) : s.firedAtMark = keepMark m (controllerMark m s) := by
  unfold State.firedAtMark
  rw [hmark]
  dsimp only
  rw [hmeets]
  rfl

theorem firedAtMark_of_unmet {s : State} (h : ∀ m, s.sampleMark = some m → s.switchAtMark m = none) : s.firedAtMark = s := by
  unfold State.firedAtMark
  cases hmark : s.sampleMark with
  | none => rfl
  | some m =>
    dsimp only
    rw [h m hmark]
    rfl

/-- What the record leaves as it fires at a mark. -/
theorem firedAtMark_frame (s : State) : s.firedAtMark.run = s.run ∧ s.firedAtMark.clock = s.clock ∧ s.firedAtMark.lines = s.lines
    ∧ s.firedAtMark.tables = s.tables ∧ s.firedAtMark.mixer = { s.mixer with earlyMark := s.firedAtMark.mixer.earlyMark } := by
  unfold State.firedAtMark
  split
  · next m _ =>
    split
    · have hframe := frame_controllerMark m s
      obtain ⟨htables, hmixer⟩ := controllerMark_tables m s
      refine ⟨hframe.run, hframe.clock, hframe.lines, htables, ?_⟩
      unfold keepMark
      dsimp only
      rw [hmixer]
    · exact ⟨rfl, rfl, rfl, rfl, rfl⟩
  · exact ⟨rfl, rfl, rfl, rfl, rfl⟩

/-- A mark kept for the sample is the one that the record fires at. -/
theorem firedAtMark_keepMark {s : State} {m : MarkReport} (h : s.sampleMark = some m) :
    (keepMark m s).firedAtMark = keepMark m s.firedAtMark := by
  have hkept : ∀ u : State, (keepMark m u).sampleMark = some m := fun _ => rfl
  have hsame : (keepMark m s).switchAtMark m = s.switchAtMark m := rfl
  cases hmeets : s.switchAtMark m with
  | none =>
    rw [firedAtMark_of_unmet (s := s) fun n hn => Option.some.inj (h.symm.trans hn) ▸ hmeets,
      firedAtMark_of_unmet fun n hn => Option.some.inj ((hkept s).symm.trans hn) ▸ hsame.trans hmeets]
  | some r =>
    have hfired := controllerMark_withMixer m (s := s) (x := { s.mixer with earlyMark := some m }) rfl
    rw [firedAtMark_of_met h hmeets, firedAtMark_of_met (hkept s) (hsame.trans hmeets)]
    unfold keepMark
    rw [(controllerMark_tables m s).2]
    exact congrArg (fun u : State => u.withMixer { u.mixer with earlyMark := some m }) hfired

/-- The sample whose mark the record has fired at, with a record of another event behind it, answers nothing more at that mark (R92). -/
theorem sampleStep2_firedAtMark {s : State} (happly : s.tables.apply = none) (b : EventBody) :
    sampleStep2 (offerEvent b s.firedAtMark) = offerEvent b (sampleStep2 s) := by
  have happly' : (offerEvent b s.firedAtMark).tables.apply = none := by
    rw [offerEvent_tables, (firedAtMark_frame s).2.2.2.1, happly]
  rw [sampleStep2_of_unapplied fun m _ => applyWaitsMark_of_none happly m.song,
    sampleStep2_of_unapplied fun m _ => applyWaitsMark_of_none happly' m.song]
  by_cases hmet : ∃ m r, s.sampleMark = some m ∧ s.switchAtMark m = some r
  · obtain ⟨m, r, hmark, hmeets⟩ := hmet
    have hfired : controllerMark m s = firePendingSwitch r s := by unfold controllerMark; rw [hmeets]
    have hgone : (offerEvent b (keepMark m (controllerMark m s))).ctrl.pendingSwitch = none := by
      rw [hfired]
      exact (firePendingSwitch_ctrl r s).1
    have hanswered : (offerEvent b (keepMark m (controllerMark m s))).markAnswered = offerEvent b (keepMark m (controllerMark m s)) :=
      controllerMark_of_none m hgone
    have hafter : (offerEvent b (keepMark m (controllerMark m s))).markAfter = s.markAfter := by
      unfold State.markAfter
      rw [hmark]
      show (match (controllerMark m s).mixer.firstMark with | some j => some j | none => some (controllerMark m s).clock.made) = _
      rw [(controllerMark_tables m s).2, (frame_controllerMark m s).clock]
      rfl
    have hnoted : (offerEvent b (keepMark m (controllerMark m s))).notedMixer = s.notedMixer := by
      unfold State.notedMixer
      rw [hafter, offerEvent_mixer]
      unfold keepMark
      dsimp only
      rw [(controllerMark_tables m s).2]
    rw [firedAtMark_of_met hmark hmeets, hanswered, hnoted]
    unfold State.markAnswered
    rw [hmark]
    rfl
  · have hunmet : ∀ m, s.sampleMark = some m → s.switchAtMark m = none := fun m hmark =>
      Option.eq_none_iff_forall_ne_some.mpr fun r hmeets => hmet ⟨m, r, hmark, hmeets⟩
    have hanswered : ∀ u : State, u.sampleMark = s.sampleMark → (∀ m, u.switchAtMark m = s.switchAtMark m) → u.markAnswered = u :=
      fun u hmark hmeets => by
        unfold State.markAnswered
        split
        · next m hm => exact controllerMark_of_unmet ((hmeets m).trans (hunmet m (hmark ▸ hm)))
        · rfl
    rw [firedAtMark_of_unmet hunmet, hanswered s rfl fun _ => rfl, hanswered (offerEvent b s) rfl fun _ => rfl]
    rfl

end Sys2Proof.Machine

/-! #### The sample whose adoption is made ahead of it (R92, R106; log 3) -/

namespace Sys2Proof.Machine

/-- A sample from its answers to its mix (R92 steps 3 and 4). -/
def State.mixedFrom (s : State) : State :=
  mixSample (sampleStep3 (sampleRestamp s))

/-- Between its answers and its mix a sample reads no event record. -/
theorem mixedFrom_offerEvent (b : EventBody) (s : State) : (offerEvent b s).mixedFrom = offerEvent b s.mixedFrom := by
  have hstamp : sampleRestamp (offerEvent b s) = offerEvent b (sampleRestamp s) := by
    unfold sampleRestamp
    rw [offerEvent_clock]
    split <;> rfl
  have hstep3 : ∀ u, sampleStep3 (offerEvent b u) = offerEvent b (sampleStep3 u) := fun u => by
    unfold sampleStep3
    rw [offerEvent_ctrl]
    split <;> rfl
  unfold State.mixedFrom
  rw [hstamp, hstep3]
  rfl

theorem mixedFrom_tables (s : State) : s.mixedFrom.tables = s.tables := by
  unfold State.mixedFrom sampleStep3 sampleRestamp
  split <;> split <;> rfl

/-- A sample that ends no transition has no step 5 (R92). -/
theorem sampleStep5_mixedFrom {s : State} (h : s.FadeGoesOn) : sampleStep5 s.mixedFrom = s.mixedFrom := by
  have hctrl : (sampleRestamp s).ctrl = s.ctrl := by
    unfold sampleRestamp
    split <;> rfl
  have hstep3 : ∀ u : State, (sampleStep3 u).ctrl
      = if u.ctrl.mode.isTransition = true then { u.ctrl with q := u.ctrl.q + 1 } else u.ctrl := fun u => by
    unfold sampleStep3
    split <;> rfl
  have hdue : fadeEndDue s.mixedFrom = false := by
    show ((sampleStep3 (sampleRestamp s)).ctrl.mode.isTransition
      && (sampleStep3 (sampleRestamp s)).ctrl.q == (sampleStep3 (sampleRestamp s)).ctrl.len) = false
    rw [hstep3, hctrl]
    split
    · next hfade => rw [Bool.and_eq_false_iff, beq_eq_false_iff_ne]; exact .inr (h hfade)
    · next hsteady => rw [Bool.and_eq_false_iff]; exact .inl (Bool.eq_false_iff.mpr hsteady)
  unfold sampleStep5
  rw [hdue]
  rfl

/-- The sample makes an adoption, or finds it made and recorded: either way its record comes behind the answers (R106). -/
theorem makeSample_of_adopted {s t z : State} (hs : sampleStep2 (sampleStep1 s) = z)
    (ht : sampleStep2 (sampleStep1 t) = offerEvent (adoptionRecord s.tables) z) (hheld : s.tables.apply.isSome = true)
    (hmade : t.tables.apply = none) (hz : z.tables.apply = none) (hgoes : z.FadeGoesOn) : makeSample t = makeSample s := by
  have hsample : recordAdoption s (sampleStep5 (sampleMixed s)) = offerEvent (adoptionRecord s.tables) z.mixedFrom := by
    show recordAdoption s (sampleStep5 (sampleStep2 (sampleStep1 s)).mixedFrom) = _
    rw [hs, sampleStep5_mixedFrom hgoes]
    exact recordAdoption_of_made hheld (by rw [mixedFrom_tables, hz])
  have hafter : recordAdoption t (sampleStep5 (sampleMixed t)) = offerEvent (adoptionRecord s.tables) z.mixedFrom := by
    show recordAdoption t (sampleStep5 (sampleStep2 (sampleStep1 t)).mixedFrom) = _
    rw [ht, sampleStep5_mixedFrom (s := offerEvent _ z) hgoes, mixedFrom_offerEvent]
    exact recordAdoption_of_noRecord hmade _
  unfold makeSample
  rw [hsample, hafter]

/-- The sample defers the record, or finds it deferred (R104). -/
theorem makeSample_of_deferred {s t : State} {r : ApplyRecord} (hheld : s.tables.apply.isSome = true)
    (htables : t.tables = { s.tables with apply := some r }) (hsteps : sampleStep2 (sampleStep1 t) = sampleStep2 (sampleStep1 s)) :
    makeSample t = makeSample s := by
  have hrecord : adoptionRecord t.tables = adoptionRecord s.tables := by rw [htables]; rfl
  have hheld' : t.tables.apply.isSome = s.tables.apply.isSome := by rw [htables, hheld]; rfl
  unfold makeSample sampleMixed recordAdoption
  rw [hsteps, hheld', hrecord]

/-! #### The controller's commands behind an adoption (R106, R109) -/

/-- The state in which table memory owes the span start no answer (R104). -/
def State.applyTaken (s : State) : State :=
  { s with mixer := { s.mixer with owedApply := false } }

theorem tableSpanStart_eq (s : State) :
    tableSpanStart s = if (s.mixer.owedApply && s.applyWaitsNow) = true then meetApplyTrigger s.applyTaken else s.applyTaken := rfl

theorem blind_tableSpanStart : LinesBlind tableSpanStart := fun s l => by
  have hmeets : LinesBlind meetApplyTrigger := fun u l => by
    cases happly : u.tables.apply with
    | none =>
      have happly' : (u.withLines l).tables.apply = none := happly
      unfold meetApplyTrigger
      rw [happly, happly']
    | some r =>
      rw [meetApplyTrigger_eq happly, meetApplyTrigger_eq (s := u.withLines l) happly]
      rfl
  have htaken : (s.withLines l).applyTaken = s.applyTaken.withLines l := rfl
  have hwaits : (s.withLines l).applyWaitsNow = s.applyWaitsNow := rfl
  rw [tableSpanStart_eq, tableSpanStart_eq, withLines_mixer, hwaits, htaken, hmeets]
  split <;> rfl

theorem blind_sampleStep1 : LinesBlind sampleStep1 := fun s l => by
  have hclock : (s.withLines l).clock = s.clock := rfl
  have hanswered := (blind_tableSpanStart.comp (blind_answerNow.comp blind_answerScheduled)) s l
  unfold sampleStep1 controllerSpanStart
  rw [hclock]
  split
  · exact hanswered
  · rfl

theorem blind_scheduledAnswered : LinesBlind scheduledAnswered := fun s l => by
  have hclock : (s.withLines l).clock = s.clock := rfl
  unfold scheduledAnswered
  rw [hclock, blind_answerScheduled]
  split <;> rfl

/-- The command of a pending switch record, in a period with samples to make, does not read the output lines (log 3). -/
theorem fireAtSample_withLines {s : State} (hbegun : s.clock.begun = true) (hmade : s.clock.made < 32) (l : OutputLines) :
    fireAtSample (s.withLines l) = (fireAtSample s).withLines l := by
  have hfires : ∀ u : State, nowFires (u.withLines l) = nowFires u := fun _ => rfl
  have hreports : ∀ u : State, (u.withLines l).sampleMark = u.sampleMark := fun _ => rfl
  have hmeets : ∀ (u : State) m, (u.withLines l).switchAtMark m = u.switchAtMark m := fun _ _ => rfl
  have hrecord : ∀ b u : State, recordAdoption (b.withLines l) (u.withLines l) = (recordAdoption b u).withLines l :=
    fun b u => by
      have hb : (b.withLines l).tables = b.tables := rfl
      have hu : (u.withLines l).tables = u.tables := rfl
      unfold recordAdoption
      rw [hb, hu]
      split <;> rfl
  unfold fireAtSample
  rw [atSample_of_begun hbegun hmade, atSample_of_begun (s := s.withLines l) hbegun hmade]
  dsimp only
  rw [blind_scheduledAnswered, hfires, blind_answerNow, blind_sampleStep1, hreports]
  split
  · rfl
  · cases (sampleStep1 s).sampleMark with
    | none => rfl
    | some m =>
      dsimp only
      rw [hmeets, blind_controllerMark, hrecord]
      split <;> rfl

section

variable {s : State} (hbegun : s.clock.begun = true) (hmade : s.clock.made < 32)

include hbegun hmade

/-- The command of a scheduled start, in a period with samples to make (log 3). -/
theorem answerStart_eq (wanted : StartAction → Bool) :
    answerStart wanted s = if startOwed wanted s = true then answerScheduled s else s := by
  unfold answerStart
  rw [atSample_of_begun hbegun hmade]

theorem answerStart_of_answered (wanted : StartAction → Bool) (h : s.clock.made = 0 → s.mixer.owedStart = false) :
    answerStart wanted s = s := by
  have howed : startOwed wanted s = false := by
    unfold startOwed
    by_cases hfirst : s.clock.made = 0
    · rw [h hfirst, Bool.and_false, Bool.false_and]
    · rw [decide_eq_false hfirst, Bool.false_and, Bool.false_and]
  rw [answerStart_eq hbegun hmade, howed]
  rfl

theorem answerStart_frame (wanted : StartAction → Bool) :
    (answerStart wanted s).run = s.run ∧ (answerStart wanted s).clock = s.clock ∧ (answerStart wanted s).tables = s.tables := by
  have hframe := frame_answerScheduled s
  rw [answerStart_eq hbegun hmade]
  split
  · exact ⟨hframe.run, hframe.clock, (answerScheduled_keeps s).2⟩
  · exact ⟨rfl, rfl, rfl⟩

/-- Where nothing is owed to a span start, the command of a pending switch record is that of a record at a mark (R71; log 3). -/
theorem fireAtSample_of_answered
    (howed : s.clock.made = 0 → s.mixer.owedStart = false ∧ s.mixer.owedSwitch = false ∧ s.mixer.owedApply = false) :
    fireAtSample s = s.firedAtMark := by
  have hscheduled : scheduledAnswered s = s := by
    unfold scheduledAnswered
    split
    · next hfirst => exact answerScheduled_of_answered (howed hfirst).1
    · rfl
  have hpasses : nowFires s = false := by
    unfold nowFires
    by_cases hfirst : s.clock.made = 0
    · rw [(howed hfirst).2.1, Bool.and_false, Bool.false_and]
    · rw [decide_eq_false hfirst, Bool.false_and, Bool.false_and]
  unfold fireAtSample State.firedAtMark
  rw [atSample_of_begun hbegun hmade]
  dsimp only
  rw [hscheduled, hpasses, sampleStep1_of_answered howed]
  cases s.sampleMark with
  | none => rfl
  | some m =>
    dsimp only
    rw [recordAdoption_of_tables (controllerMark_tables m s).1]
    rfl

/-- Without an apply record, the command of a pending switch record leaves the tables. -/
theorem fireAtSample_tables (happly : s.tables.apply = none) : (fireAtSample s).tables = s.tables := by
  have hscheduled : (scheduledAnswered s).tables = s.tables := by
    unfold scheduledAnswered
    split
    · exact (answerScheduled_keeps s).2
    · rfl
  have hstep1 : (sampleStep1 s).tables = s.tables := by
    have hcontroller : (controllerSpanStart s).tables = s.tables := (answerNow_tables _).trans (answerScheduled_keeps s).2
    have hpasses : (controllerSpanStart s).applyWaitsNow = false := by
      unfold State.applyWaitsNow
      rw [hcontroller, happly]
    unfold sampleStep1
    rw [tableSpanStart_eq, hpasses, Bool.and_false]
    split
    · exact hcontroller
    · rfl
  unfold fireAtSample
  rw [atSample_of_begun hbegun hmade]
  dsimp only
  split
  · exact (answerNow_tables _).trans hscheduled
  · split
    · next m _ =>
      split
      · have hmark := (controllerMark_tables m (sampleStep1 s)).1.trans hstep1
        rw [recordAdoption_of_tables hmark]
        exact hmark
      · rfl
    · rfl

end

/-- Table memory has adopted ahead of the controller: the controller's answers to the same instant come before the record (R106, R109). -/
theorem recordBehind_of_adopted {before after : State} (hbegun : after.clock.begun = true) (hmade : after.clock.made < 32)
    (hheld : before.tables.apply.isSome = true) (happly : after.tables.apply = none) :
    recordBehind before after = offerEvent (adoptionRecord before.tables) (fireAtSample (answerStart isOpenOrFade after)) := by
  obtain ⟨-, hclock, htables⟩ := answerStart_frame hbegun hmade isOpenOrFade
  have hnone : (fireAtSample (answerStart isOpenOrFade after)).tables.apply = none := by
    rw [fireAtSample_tables (by rw [hclock]; exact hbegun) (by rw [hclock]; exact hmade) (by rw [htables, happly]), htables, happly]
  unfold recordBehind
  rw [happly]
  exact recordAdoption_of_made hheld hnone

theorem recordBehind_of_held {before after : State} (h : after.tables.apply.isSome = true) : recordBehind before after = after := by
  unfold recordBehind
  rw [if_neg]
  obtain ⟨r, hr⟩ := Option.isSome_iff_exists.mp h
  rw [hr]
  exact Bool.false_ne_true

end Sys2Proof.Machine

/-! #### The adoption at a span start and at a mark (R104, R106, R109) -/

namespace Sys2Proof.Machine

/-- The state with its staged copy adopted, or refused (R106). -/
def State.adopted (s : State) : State :=
  { s with tables := s.tables.adopted }

/-- The state with its pending apply record DEFERRED (R104). -/
def State.deferring (s : State) (trigger : Trigger) : State :=
  { s with tables := { s.tables with apply := some ⟨trigger, .deferred⟩ } }

theorem meetApplyTrigger_of_transition {s : State} {r : ApplyRecord} (h : s.tables.apply = some r)
    (hmode : s.ctrl.mode.isTransition = true) : meetApplyTrigger s = s.deferring r.trigger := by
  rw [meetApplyTrigger_eq h, if_pos hmode]
  rfl

theorem meetApplyTrigger_of_steady {s : State} {r : ApplyRecord} (h : s.tables.apply = some r)
    (hmode : s.ctrl.mode.isTransition = false) : meetApplyTrigger s = s.adopted := by
  rw [meetApplyTrigger_eq h, if_neg (by rw [hmode]; exact Bool.false_ne_true)]
  rfl

/-- A sample that follows an adoption made at the last of its answers ends no transition that was not there. -/
theorem fadeGoesOn_sampleStep2 {s : State} (happly : s.tables.apply = none) (hmode : s.ctrl.mode.isTransition = false) :
    (sampleStep2 s).FadeGoesOn := by
  rw [sampleStep2_of_unapplied fun m _ => applyWaitsMark_of_none happly m.song]
  show s.markAnswered.FadeGoesOn
  unfold State.markAnswered
  split
  · exact fadeGoesOn_controllerMark _ hmode
  · intro hfade
    rw [hmode] at hfade
    cases hfade

theorem sampleStep2_tables {s : State} (happly : s.tables.apply = none) : (sampleStep2 s).tables = s.tables := by
  rw [sampleStep2_of_unapplied fun m _ => applyWaitsMark_of_none happly m.song]
  show s.markAnswered.tables = _
  unfold State.markAnswered
  split
  · exact (controllerMark_tables _ s).1
  · rfl

/-- What is settled behind a record does not depend on the lines before it. -/
theorem settleLines_offerEvent (b : EventBody) (u v : State) (l : OutputLines) (hv : v = (u.withLines l).settleLines) :
    State.settleLines { v with events := v.recording [b] } = (offerEvent b u).settleLines := by
  rw [hv]
  rfl

section

variable {s : State} (h : s.AtSpanStart) (howed : s.mixer.owedApply = true) (happly : s.tables.apply = some ⟨.now, .waiting⟩)

include h howed happly

/-- A NOW record at its span start is met there, by table memory first (R104, R109; log 35). -/
theorem adoptAtSample_of_now :
    tableSpanStart s = meetApplyTrigger s.applyTaken ∧ adoptAtSample s = recordBehind s (meetApplyTrigger s.applyTaken) := by
  obtain ⟨-, hbegun, hmade⟩ := h
  have hwaits : s.applyWaitsNow = true := by
    unfold State.applyWaitsNow
    rw [happly]
  have hmeets : tableSpanStart s = meetApplyTrigger s.applyTaken := by
    rw [tableSpanStart_eq, howed, hwaits]
    rfl
  have hmet : applyNowMet s = true := by
    unfold applyNowMet
    rw [hmade, howed, hwaits]
    rfl
  refine ⟨hmeets, ?_⟩
  unfold adoptAtSample
  rw [atSample_of_begun hbegun (by omega)]
  dsimp only
  rw [hmet, hmeets]
  rfl

/-- In a transition the record is deferred at its span start (R104). -/
theorem adoptAtSample_now_deferred (hmode : s.ctrl.mode.isTransition = true) : adoptAtSample s = s.applyTaken.deferring .now := by
  rw [(adoptAtSample_of_now h howed happly).2, meetApplyTrigger_of_transition (s := s.applyTaken) happly hmode]
  exact recordBehind_of_held rfl

/-- In IDLE and the ON states the record is adopted at its span start, its own record behind the controller's answers (R106, R109). -/
theorem adoptAtSample_now_adopted (hmode : s.ctrl.mode.isTransition = false) :
    adoptAtSample s
      = offerEvent (adoptionRecord s.tables) (fireAtSample (answerStart isOpenOrFade s.applyTaken.adopted)) := by
  rw [(adoptAtSample_of_now h howed happly).2, meetApplyTrigger_of_steady (s := s.applyTaken) happly hmode]
  obtain ⟨-, hbegun, hmade⟩ := h
  exact recordBehind_of_adopted hbegun (show s.clock.made < 32 by omega) (by rw [happly]; rfl) rfl

/-- With no start and no NOW record owed, the adoption's record follows the pending switch record's that meets that sample's mark. -/
theorem adoptAtSample_now_answered (hmode : s.ctrl.mode.isTransition = false) (hstart : s.mixer.owedStart = false)
    (hswitch : s.mixer.owedSwitch = false) :
    adoptAtSample s = offerEvent (adoptionRecord s.tables) s.applyTaken.adopted.firedAtMark := by
  rw [adoptAtSample_now_adopted h howed happly hmode]
  obtain ⟨-, hbegun, hmade⟩ := h
  rw [answerStart_of_answered (s := s.applyTaken.adopted) hbegun (show s.clock.made < 32 by omega) _ fun _ => hstart]
  exact congrArg _ (fireAtSample_of_answered (s := s.applyTaken.adopted) hbegun (show s.clock.made < 32 by omega)
    fun _ => ⟨hstart, hswitch, rfl⟩)

/-- With no start and no NOW record owed, the sample of that span start is made as PROGRAM_SAMPLE alone makes it (R92). -/
theorem makeSample_adoptAtSample_now (hstart : s.mixer.owedStart = false) (hswitch : s.mixer.owedSwitch = false) :
    makeSample (adoptAtSample s) = makeSample s := by
  have hmeets := (adoptAtSample_of_now h howed happly).1
  obtain ⟨-, hbegun, hmade⟩ := id h
  have hcontroller : controllerSpanStart s = s := by
    unfold controllerSpanStart
    rw [answerScheduled_of_answered hstart, answerNow_of_none (.inl hswitch), ← hswitch]
  have hstep1 : sampleStep1 s = meetApplyTrigger s.applyTaken := by
    unfold sampleStep1
    rw [if_pos hmade, hcontroller, hmeets]
  have hheld : s.tables.apply.isSome = true := by rw [happly]; rfl
  cases hmode : s.ctrl.mode.isTransition with
  | true =>
    rw [adoptAtSample_now_deferred h howed happly hmode]
    refine makeSample_of_deferred hheld rfl ?_
    rw [hstep1, meetApplyTrigger_of_transition (s := s.applyTaken) happly hmode]
    exact congrArg sampleStep2 (sampleStep1_of_answered (s := s.applyTaken.deferring .now) fun _ => ⟨hstart, hswitch, rfl⟩)
  | false =>
    have hnone : s.applyTaken.adopted.tables.apply = none := rfl
    obtain ⟨-, -, -, htables, hmixer⟩ := firedAtMark_frame s.applyTaken.adopted
    rw [meetApplyTrigger_of_steady (s := s.applyTaken) happly hmode] at hstep1
    rw [adoptAtSample_now_answered h howed happly hmode hstart hswitch]
    refine makeSample_of_adopted (z := sampleStep2 s.applyTaken.adopted) (by rw [hstep1]) ?_ hheld ?_ ?_ ?_
    · rw [sampleStep1_of_answered, sampleStep2_firedAtMark hnone]
      intro _
      rw [offerEvent_mixer, hmixer]
      exact ⟨hstart, hswitch, rfl⟩
    · rw [offerEvent_tables, htables, hnone]
    · rw [sampleStep2_tables hnone, hnone]
    · exact fadeGoesOn_sampleStep2 hnone hmode

theorem adoptAtSample_now_frame (hstart : s.mixer.owedStart = false) (hswitch : s.mixer.owedSwitch = false) :
    (adoptAtSample s).run = s.run ∧ (adoptAtSample s).clock = s.clock ∧ (adoptAtSample s).lines = s.lines := by
  cases hmode : s.ctrl.mode.isTransition with
  | true =>
    rw [adoptAtSample_now_deferred h howed happly hmode]
    exact ⟨rfl, rfl, rfl⟩
  | false =>
    obtain ⟨hrun, hclock, hlines, -, -⟩ := firedAtMark_frame s.applyTaken.adopted
    rw [adoptAtSample_now_answered h howed happly hmode hstart hswitch]
    exact ⟨hrun, hclock, hlines⟩

/-- The controller's commands behind an adoption at a span start, and ADOPTION between its record and theirs (R106, R109). -/
theorem exec_adoption_now (hmode : s.ctrl.mode.isTransition = false) : ∃ u v,
    exec .transitionStart s.applyTaken.adopted = .next u ∧ exec .pendingSwitchFire u = .next v
    ∧ exec .adoption s = .next (State.settleLines { v with events := v.recording [adoptionRecord s.tables] })
    ∧ (s.mixer.owedStart = false → s.mixer.owedSwitch = false → (s.sampleMark ≠ none → s.ctrl.pendingSwitch = none) →
      v = s.applyTaken.adopted.settleLines) := by
  have hadopt := adoptAtSample_now_adopted h howed happly hmode
  obtain ⟨hrun, hbegun, hmade⟩ := h
  have hbegun' : s.applyTaken.adopted.clock.begun = true := hbegun
  have hmade' : s.applyTaken.adopted.clock.made < 32 := show s.clock.made < 32 by omega
  obtain ⟨hwrun, hwclock, -⟩ := answerStart_frame hbegun' hmade' isOpenOrFade
  have hstarts : exec .transitionStart s.applyTaken.adopted = .next (answerStart isOpenOrFade s.applyTaken.adopted).settleLines :=
    whileRunning_of_running hrun
  have hfires : fireAtSample (answerStart isOpenOrFade s.applyTaken.adopted).settleLines
      = (fireAtSample (answerStart isOpenOrFade s.applyTaken.adopted)).withLines
          (outputLines (answerStart isOpenOrFade s.applyTaken.adopted)) :=
    fireAtSample_withLines (by rw [hwclock]; exact hbegun') (by rw [hwclock]; exact hmade') _
  refine ⟨_, _, hstarts, whileRunning_of_running (hwrun.trans hrun), ?_, fun hstart hswitch hfree => ?_⟩
  · refine (whileRunning_of_running hrun).trans ?_
    rw [hadopt]
    exact congrArg Host.Outcome.next (settleLines_offerEvent _ _ _ _ (congrArg State.settleLines hfires)).symm
  · have hunmet : s.applyTaken.adopted.firedAtMark = s.applyTaken.adopted :=
      firedAtMark_of_unmet fun m hm => switchAtMark_of_none m (hfree fun hnone => by cases hnone.symm.trans hm)
    have hfired := (fireAtSample_of_answered hbegun' hmade' fun _ => ⟨hstart, hswitch, rfl⟩).trans hunmet
    rw [hfires, answerStart_of_answered hbegun' hmade' _ fun _ => hstart, hfired]
    rfl

end

/-! #### The adoption at a mark (R104; log 3) -/

section

variable {s : State} {m : MarkReport} {trigger : Trigger} (hbegun : s.clock.begun = true) (hmade : s.clock.made < 32)
  (howed : s.clock.made = 0 → s.mixer.owedStart = false ∧ s.mixer.owedSwitch = false ∧ s.mixer.owedApply = false)
  (hmark : s.sampleMark = some m) (happly : s.tables.apply = some ⟨trigger, .waiting⟩)
  (htrigger : trigger = .atMark ∨ trigger = .atSong m.song)

include happly htrigger

theorem applyWaitsMark_of_waiting : s.applyWaitsMark m.song = true := by
  unfold State.applyWaitsMark
  rw [happly]
  obtain rfl | rfl := htrigger
  · rfl
  · exact beq_self_eq_true m.song

/-- A record that waits for this mark is met by it (R104). -/
theorem tableMark_of_waiting : tableMark m s = meetApplyTrigger s := by
  unfold tableMark
  rw [applyWaitsMark_of_waiting happly htrigger]
  rfl

include hbegun hmade howed hmark

/-- A record that waits for the mark of the next sample is met there, by table memory first (R104, R109; log 35). -/
theorem adoptAtSample_of_mark : adoptAtSample s = recordBehind s (keepMark m (meetApplyTrigger s)) := by
  have hpasses : applyNowMet s = false := by
    unfold applyNowMet
    by_cases hfirst : s.clock.made = 0
    · rw [(howed hfirst).2.2, Bool.and_false, Bool.false_and]
    · rw [decide_eq_false hfirst, Bool.false_and, Bool.false_and]
  unfold adoptAtSample
  rw [atSample_of_begun hbegun hmade]
  dsimp only
  rw [hpasses, sampleStep1_of_answered howed, hmark]
  dsimp only
  rw [applyWaitsMark_of_waiting happly htrigger, tableMark_of_waiting happly htrigger]
  rfl

/-- In a transition the record is deferred at the mark (R104). -/
theorem adoptAtSample_mark_deferred (hmode : s.ctrl.mode.isTransition = true) : adoptAtSample s = keepMark m (s.deferring trigger) := by
  rw [adoptAtSample_of_mark hbegun hmade howed hmark happly htrigger, meetApplyTrigger_of_transition happly hmode]
  exact recordBehind_of_held rfl

/-- In IDLE and the ON states the record is adopted at the mark, its own record behind the pending switch record's (R106, R109). -/
theorem adoptAtSample_mark_adopted (hmode : s.ctrl.mode.isTransition = false) :
    adoptAtSample s = offerEvent (adoptionRecord s.tables) (keepMark m s.adopted.firedAtMark) := by
  rw [adoptAtSample_of_mark hbegun hmade howed hmark happly htrigger, meetApplyTrigger_of_steady happly hmode,
    recordBehind_of_adopted (after := keepMark m s.adopted) hbegun hmade (by rw [happly]; rfl) rfl,
    answerStart_of_answered (s := keepMark m s.adopted) hbegun hmade _ fun hfirst => (howed hfirst).1,
    fireAtSample_of_answered (s := keepMark m s.adopted) hbegun hmade howed, firedAtMark_keepMark (s := s.adopted) hmark]

/-- The pending switch record's command behind an adoption at a mark, and ADOPTION with its record behind that (R106, R109). -/
theorem exec_adoption_mark (hrun : s.run = .running) (hmode : s.ctrl.mode.isTransition = false) : ∃ v,
    exec .pendingSwitchFire s.adopted = .next v
    ∧ exec .adoption s = .next (State.settleLines { keepMark m v with events := v.recording [adoptionRecord s.tables] })
    ∧ (s.ctrl.pendingSwitch = none → v = s.adopted.settleLines) := by
  have hfired := fireAtSample_of_answered (s := s.adopted) hbegun hmade howed
  refine ⟨_, whileRunning_of_running hrun, ?_, fun hfree => ?_⟩
  · refine (whileRunning_of_running hrun).trans ?_
    rw [adoptAtSample_mark_adopted hbegun hmade howed hmark happly htrigger hmode, hfired]
    rfl
  · rw [hfired, firedAtMark_of_unmet (s := s.adopted) fun n _ => switchAtMark_of_none n hfree]

/-- With no pending switch record, the sample of the mark is made as PROGRAM_SAMPLE alone makes it (R92). -/
theorem makeSample_adoptAtSample_mark (hfree : s.ctrl.pendingSwitch = none) : makeSample (adoptAtSample s) = makeSample s := by
  have hheld : s.tables.apply.isSome = true := by rw [happly]; rfl
  have hsteps : sampleStep2 (sampleStep1 s) = meetApplyTrigger (s.withMixer s.notedMixer) := by
    rw [sampleStep1_of_answered howed, sampleStep2_of_unarmed hmark hfree]
    exact tableMark_of_waiting (s := s.withMixer s.notedMixer) happly htrigger
  have hnoted : ∀ u : State, u.mixer = s.mixer → u.clock = s.clock → (keepMark m u).notedMixer = s.notedMixer :=
      fun u hmixer hclock => by
        unfold State.notedMixer State.markAfter
        rw [hmark]
        unfold keepMark State.sampleMark
        rw [hclock, hmixer]
  cases hmode : s.ctrl.mode.isTransition with
  | true =>
    rw [meetApplyTrigger_of_transition (s := s.withMixer s.notedMixer) happly hmode] at hsteps
    rw [adoptAtSample_mark_deferred hbegun hmade howed hmark happly htrigger hmode]
    refine makeSample_of_deferred hheld rfl (Eq.trans ?_ hsteps.symm)
    rw [sampleStep1_of_answered (s := keepMark m (s.deferring trigger)) howed,
      sampleStep2_of_unarmed (s := keepMark m (s.deferring trigger)) rfl hfree, hnoted (s.deferring trigger) rfl rfl]
    refine tableMark_of_unwaited ?_
    obtain rfl | rfl := htrigger <;> rfl
  | false =>
    have hnone : ∀ n, s.switchAtMark n = none := fun n => switchAtMark_of_none n hfree
    rw [meetApplyTrigger_of_steady (s := s.withMixer s.notedMixer) happly hmode] at hsteps
    rw [adoptAtSample_mark_adopted hbegun hmade howed hmark happly htrigger hmode,
      firedAtMark_of_unmet (s := s.adopted) fun n _ => hnone n]
    refine makeSample_of_adopted hsteps ?_ hheld rfl rfl ?_
    · rw [sampleStep1_of_answered (s := offerEvent (adoptionRecord s.tables) (keepMark m s.adopted)) howed,
        sampleStep2_of_unarmed (s := offerEvent (adoptionRecord s.tables) (keepMark m s.adopted)) (m := m) rfl hfree,
        tableMark_of_unwaited (applyWaitsMark_of_none rfl m.song)]
      exact congrArg (offerEvent (adoptionRecord s.tables) s.adopted).withMixer (hnoted s.adopted rfl rfl)
    · intro hfade
      cases hmode.symm.trans hfade

theorem adoptAtSample_mark_frame (hfree : s.ctrl.pendingSwitch = none) :
    (adoptAtSample s).run = s.run ∧ (adoptAtSample s).clock = s.clock ∧ (adoptAtSample s).lines = s.lines := by
  cases hmode : s.ctrl.mode.isTransition with
  | true =>
    rw [adoptAtSample_mark_deferred hbegun hmade howed hmark happly htrigger hmode]
    exact ⟨rfl, rfl, rfl⟩
  | false =>
    rw [adoptAtSample_mark_adopted hbegun hmade howed hmark happly htrigger hmode,
      firedAtMark_of_unmet (s := s.adopted) fun n _ => switchAtMark_of_none n hfree]
    exact ⟨rfl, rfl, rfl⟩

end

theorem bne_eq_decide_ne {α : Type} [DecidableEq α] [BEq α] [LawfulBEq α] (a b : α) : (a != b) = decide (a ≠ b) :=
  Bool.eq_iff_iff.mpr (bne_iff_ne.trans decide_eq_true_iff.symm)

/-- The record of an adoption names the tables that differ, or the reason of the refusal (R106). -/
theorem adoptionRecord_eq (tm : TableMemory) : adoptionRecord tm =
    match validate tm with
    | none => .applyDone (decide (tm.staged.route ≠ tm.live.route)) (decide (tm.staged.curve ≠ tm.live.curve))
        (decide (tm.staged.profile ≠ tm.live.profile))
    | some reason => .applyRefused reason := by
  unfold adoptionRecord
  cases validate tm with
  | none => simp only [bne_eq_decide_ne]
  | some reason => rfl

/-- Settles O23: the command answers the span start or the mark for table memory, and gives the controller's answers before its record. -/
theorem adoptionTakesAllTablesOrNone : Obligations.AdoptionTakesAllTablesOrNone := by
  unfold Obligations.AdoptionTakesAllTablesOrNone
  intro adopted record deferred
  have hrecord : ∀ s, record s = adoptionRecord s.tables := fun s => (adoptionRecord_eq s.tables).symm
  constructor
  · intro s h howed happly s'
    refine ⟨fun hmode => ?_, fun hmode => ?_, fun hstart hswitch t => ?_⟩
    · exact (whileRunning_of_running h.1).trans
        (congrArg (fun u => Host.Outcome.next (State.settleLines u)) (adoptAtSample_now_deferred h howed happly hmode))
    · rw [hrecord]
      exact exec_adoption_now h howed happly hmode
    · obtain ⟨hrun, hbegun, hmade⟩ := id h
      exact exec_programSample_after hrun hbegun (by omega) (whileRunning_of_running hrun)
        (adoptAtSample_now_frame h howed happly hstart hswitch) (makeSample_adoptAtSample_now h howed happly hstart hswitch)
  · intro s x trigger song hrun hbegun hmade howed hearly hport hread happly htrigger kept
    have hmark : s.sampleMark = some ⟨x, song⟩ :=
      sampleMark_of_markPort (by obtain hmode | hmode | hmode := hport <;> rw [hmode] <;> rfl) hearly hread
    refine ⟨fun hmode => ?_, fun hmode => ?_, fun hfree t => ?_⟩
    · exact (whileRunning_of_running hrun).trans
        (congrArg (fun u => Host.Outcome.next (State.settleLines u))
          (adoptAtSample_mark_deferred hbegun hmade howed hmark happly htrigger hmode))
    · rw [hrecord]
      exact exec_adoption_mark hbegun hmade howed hmark happly htrigger hrun hmode
    · exact exec_programSample_after hrun hbegun hmade (whileRunning_of_running hrun)
        (adoptAtSample_mark_frame hbegun hmade howed hmark happly htrigger hfree)
        (makeSample_adoptAtSample_mark hbegun hmade howed hmark happly htrigger hfree)

end Sys2Proof.Machine

/-! ### AUTO and LOCK requests (R66, R74, R115 to R117, R136, R137) -/

namespace Sys2Proof.Machine

/-- The flag operands are 0 and 1 (R158). -/
theorem flagOfCode_eq (b : Byte) : flagOfCode b = if 1 < b.toNat then none else some (decide (b = 1)) := by
  have hzero : b = 0 ↔ b.toNat = 0 := byte_eq_iff b 0 (by decide)
  have hone : b = 1 ↔ b.toNat = 1 := byte_eq_iff b 1 (by decide)
  unfold flagOfCode
  simp only [hzero, hone]
  by_cases h0 : b.toNat = 0
  · simp [h0]
  · by_cases h1 : b.toNat = 1
    · simp [h1]
    · have hbig : 1 < b.toNat := by omega
      simp [h0, h1, hbig]

/-- The lock mode operands are 0, 1 and 2 (11.2). -/
theorem lockModeOfCode_eq (b : Byte) :
    lockModeOfCode b
      = if 2 < b.toNat then none else some (if b = 0 then .openMode else if b = 1 then .line else .latched) := by
  have hzero : b = 0 ↔ b.toNat = 0 := byte_eq_iff b 0 (by decide)
  have hone : b = 1 ↔ b.toNat = 1 := byte_eq_iff b 1 (by decide)
  have htwo : b = 2 ↔ b.toNat = 2 := byte_eq_iff b 2 (by decide)
  unfold lockModeOfCode
  simp only [hzero, hone, htwo]
  by_cases h0 : b.toNat = 0
  · simp [h0]
  · by_cases h1 : b.toNat = 1
    · simp [h1]
    · by_cases h2 : b.toNat = 2
      · simp [h2]
      · have hbig : 2 < b.toNat := by omega
        simp [h0, h1, h2, hbig]

/-- AUTO passes to set in a degraded ON_X with a ready other port and no start scheduled: the failover of R66. -/
theorem setAuto_of_resolving {s : State} {x : Port} (hmode : s.ctrl.mode = .on x) (hauto : s.ctrl.auto = false)
    (h : s.ctrl.degraded = true ∧ s.ready x.other = true ∧ s.ctrl.scheduled = none) :
    setAuto s = { s with
      ctrl := { s.ctrl with auto := true, pendingSwitch := none, scheduled := some ⟨.fade, x.other, .failure⟩ }
      mixer := { s.mixer with owedStart := false }
      events := s.recording (replacedRecord s.ctrl.pendingSwitch) } := by
  obtain ⟨hdegraded, hready, hscheduled⟩ := h
  unfold setAuto
  simp only [hmode, hauto, hdegraded, hready, Bool.not_false, Bool.and_self, if_true]
  rw [resolveDegraded, if_neg (by simp [hscheduled]), scheduleFailover_eq]
  rfl

/-- In every other state AUTO on sets the flag alone (R74). -/
theorem setAuto_of_unresolving {s : State}
    (h : ∀ x, s.ctrl.mode = .on x → ¬(s.ctrl.degraded = true ∧ s.ready x.other = true ∧ s.ctrl.scheduled = none)) :
    setAuto s = { s with ctrl := { s.ctrl with auto := true } } := by
  unfold setAuto
  dsimp only
  split
  · next x hmode =>
    refine ite_eq_right_iff.mpr fun hdue => ?_
    simp only [Bool.and_eq_true] at hdue
    obtain ⟨⟨-, hdegraded⟩, hready⟩ := hdue
    have hscheduled : s.ctrl.scheduled ≠ none := fun hnone => h x hmode ⟨hdegraded, hready, hnone⟩
    exact if_pos (Option.isSome_iff_ne_none.mpr hscheduled)
  · rfl

/-- Settles O49: the request is served at once, and its verb is the operand test, the value held, and then the lock (log 19) or R66. -/
theorem autoObeysTheLock : Obligations.AutoObeysTheLock := by
  unfold Obligations.AutoObeysTheLock
  intro s p tag value hserve
  have hserved : ∀ {value : Byte} {u : State} {status : Status}, doAuto value (s.taking p) = ⟨u.taking p, status, []⟩ →
      u.ports = s.ports → exec (.auto p tag [value]) s = .next (s.served u p tag 0x07 status []) :=
    fun {_ u status} hverb hports => whileRunning_served (d := ⟨u, status, []⟩) hserve (by simp) hverb hports
  have hctrl : (s.taking p).ctrl = s.ctrl := rfl
  have htables : (s.taking p).tables = s.tables := rfl
  refine ⟨fun hvalue => hserved ?_ rfl, ?_, ?_⟩
  · rw [doAuto, flagOfCode_eq, if_pos hvalue]
    rfl
  · by_cases hauto : s.ctrl.auto = false
    · rw [if_pos hauto]
      exact hserved (if_pos hauto.symm) rfl
    rw [if_neg hauto]
    by_cases hlock : lockEngaged s.tables.lock = true
    · rw [if_pos hlock]
      exact hserved ((if_neg (Ne.symm hauto)).trans (if_pos hlock)) rfl
    · rw [if_neg hlock]
      exact hserved ((if_neg (Ne.symm hauto)).trans (if_neg hlock)) rfl
  · by_cases hauto : s.ctrl.auto = true
    · rw [if_pos hauto]
      exact hserved (if_pos hauto.symm) rfl
    rw [if_neg hauto]
    have hset : ∀ {u : State}, setAuto (s.taking p) = u.taking p → u.ports = s.ports →
        exec (.auto p tag [0x01]) s = .next (s.served u p tag 0x07 .ok []) :=
      fun hu hports => hserved ((if_neg (Ne.symm hauto)).trans (congrArg (answerWith · .ok) hu)) hports
    have halone (h : ∀ x, s.ctrl.mode = .on x → ¬(s.ctrl.degraded = true ∧ s.ready x.other = true ∧ s.ctrl.scheduled = none)) :
        exec (.auto p tag [0x01]) s = .next (s.served { s with ctrl := { s.ctrl with auto := true } } p tag 0x07 .ok []) :=
      hset (setAuto_of_unresolving (s := s.taking p) h) rfl
    cases hmode : s.ctrl.mode with
    | on x =>
      dsimp only
      by_cases hdue : s.ctrl.degraded = true ∧ s.ready x.other = true ∧ s.ctrl.scheduled = none
      · rw [if_pos hdue]
        exact hset (setAuto_of_resolving (s := s.taking p) hmode (Bool.eq_false_of_not_eq_true hauto) hdue) rfl
      · rw [if_neg hdue]
        exact halone fun y hy => by rw [Mode.on.inj (hmode.symm.trans hy)] at hdue; exact hdue
    | idle => exact halone fun y hy => nomatch hmode.symm.trans hy
    | opening x => exact halone fun y hy => nomatch hmode.symm.trans hy
    | fade x => exact halone fun y hy => nomatch hmode.symm.trans hy

/-- The value test of a LOCK request, and the record it asks for (R116, R137). -/
theorem lockRecordOf_eq (code complement mode : Byte) :
    lockRecordOf code complement mode =
      if h : code.toNat < 8 ∧ complement.toNat ≤ 1 ∧ mode.toNat ≤ 2 then
        some { code := ⟨code.toNat, h.1⟩, complement := decide (complement = 1),
               mode := if mode = 0 then .openMode else if mode = 1 then .line else .latched }
      else none := by
  unfold lockRecordOf
  rw [flagOfCode_eq, lockModeOfCode_eq, lockCodeOf]
  by_cases hcode : code.toNat < 8
  · by_cases hcomplement : complement.toNat ≤ 1
    · by_cases hmode : mode.toNat ≤ 2
      · simp [hcode, hcomplement, hmode, Nat.not_lt_of_le]
      · simp [hcode, hcomplement, hmode, Nat.not_lt_of_le, Nat.lt_of_not_le]
    · simp [hcode, hcomplement, Nat.lt_of_not_le]
  · simp [hcode]

/-- The mode test of a LOCK request, on the mode held (R116, R117). -/
theorem lockModeRefuses_iff (held : LockRecord) (key : Bool) :
    lockModeRefuses held key = true ↔ held.mode = .latched ∨ (held.mode = .line ∧ key = true) := by
  unfold lockModeRefuses
  cases held.mode <;> simp

/-- The value test of a LOCK request comes first, then the mode test, and a request that passes both replaces the record (R116). -/
theorem doLock_eq (code complement mode : Byte) (s : State) :
    doLock code complement mode s =
      if h : code.toNat < 8 ∧ complement.toNat ≤ 1 ∧ mode.toNat ≤ 2 then
        if s.tables.lock.mode = .latched ∨ (s.tables.lock.mode = .line ∧ s.pins.showlock = true) then ⟨s, .locked, []⟩
        else ⟨{ s with tables := { s.tables with lock :=
          { code := ⟨code.toNat, h.1⟩, complement := decide (complement = 1),
            mode := if mode = 0 then .openMode else if mode = 1 then .line else .latched } } }, .ok, []⟩
      else ⟨s, .badValue, []⟩ := by
  unfold doLock
  rw [lockRecordOf_eq]
  by_cases h : code.toNat < 8 ∧ complement.toNat ≤ 1 ∧ mode.toNat ≤ 2
  · rw [dif_pos h, dif_pos h]
    exact if_congr (lockModeRefuses_iff _ _) rfl rfl
  · rw [dif_neg h, dif_neg h]
    rfl

/-- A LOCK request takes the level it carries, and is then served at once (R117). -/
theorem exec_lock_served {s u : State} {p : Port} {code complement mode : Byte} {status : Status} {key : Bool} (tag : Byte)
    (hserve : s.CanServe p) (hverb : doLock code complement mode ((setShowlock key s).taking p) = ⟨u.taking p, status, []⟩)
    (hports : u.ports = s.ports) :
    exec (.lock p tag [code, complement, mode] key) s = .next (s.served u p tag 0x08 status []) := by
  have hexec := whileRunning_of_running
    (f := fun s => submitRequest p (tag :: 0x08 :: [code, complement, mode]) (setShowlock key (atRequest s))) hserve.1
  rw [atRequest_of_made hserve.2.1] at hexec
  exact hexec.trans (congrArg Host.Outcome.next (submitRequest_served (s := setShowlock key s) hserve (by simp) hverb hports))

/-- Settles O50: the request is served at once at the level it carries, and its verb is the value test and then the mode test. -/
theorem lockFollowsTheModeHeld : Obligations.LockFollowsTheModeHeld := by
  unfold Obligations.LockFollowsTheModeHeld
  intro s p tag code complement mode key hserve
  have hserved : ∀ {u : State} {status : Status},
      doLock code complement mode ((setShowlock key s).taking p) = ⟨u.taking p, status, []⟩ → u.ports = s.ports →
      exec (.lock p tag [code, complement, mode] key) s = .next (s.served u p tag 0x08 status []) :=
    fun hverb hports => exec_lock_served tag hserve hverb hports
  have htables : ((setShowlock key s).taking p).tables = s.tables := rfl
  have hkey : ((setShowlock key s).taking p).pins.showlock = key := rfl
  rw [doLock_eq, htables, hkey] at hserved
  dsimp only
  split_ifs at hserved ⊢
  all_goals exact hserved rfl rfl

end Sys2Proof.Machine

/-! ### A LATCHED lock and what it locks (R112, R114, R116, R119) -/

namespace Sys2Proof.Machine

/-- The lock record held in `k` is engaged and LATCHED, and stands in `tm` with all that it locks (R112, R119). -/
structure TableMemory.LatchedIn (k tm : TableMemory) : Prop where
  latched : k.lock.mode = .latched
  engaged : lockEngaged k.lock = true
  lock : tm.lock = k.lock
  curve : tm.live.curve = k.live.curve
  profile : tm.live.profile = k.live.profile
  route : ∀ i < 64, channelLocked k.lock i = true → tm.live.route[i]? = k.live.route[i]?

/-- What an engaged lock's test of a staged copy says when it passes (R114). -/
theorem agrees_of_lockCondition {l : LockRecord} {live staged : Tables} (hengaged : lockEngaged l = true)
    (h : lockCondition l live staged = true) : staged.curve = live.curve ∧ staged.profile = live.profile
      ∧ ∀ i < 64, channelLocked l i = true → staged.route[i]? = live.route[i]? := by
  have hagree := (not_congr (lockCondition_eq_false_iff l live staged)).mp (by simp [h])
  refine ⟨?_, ?_, fun i hi hlocked => ?_⟩ <;> by_contra hdiffers
  · exact hagree ⟨hengaged, .inr (.inl hdiffers)⟩
  · exact hagree ⟨hengaged, .inr (.inr hdiffers)⟩
  · exact hagree ⟨hengaged, .inl ⟨⟨i, hi⟩, hlocked, hdiffers⟩⟩

/-- LOCK is refused while the mode held is LATCHED, whatever it asks for (R116). -/
theorem doLock_of_latched (code complement mode : Byte) {s : State} (h : s.tables.lock.mode = .latched) :
    (doLock code complement mode s).state = s := by
  have hrefuses := (lockModeRefuses_iff s.tables.lock s.pins.showlock).mpr (.inl h)
  unfold doLock
  split
  · rfl
  · rw [if_pos hrefuses]; rfl

/-- LOCK alone writes the lock record, and not while its mode is LATCHED (R116). -/
theorem runVerb_lock (verb : Byte) (operands : List Byte) {s : State} (h : s.tables.lock.mode = .latched) :
    (runVerb verb operands s).state.tables.lock = s.tables.lock := by
  refine runVerb_of (P := fun a => a.state.tables.lock = s.tables.lock) verb operands s ?_ ?_ ?_ ?_ ?_ ?_ ?_ ?_ ?_ ?_ ?_ ?_ ?_ rfl
  · unfold verbState; split <;> rfl
  · unfold verbRead doRead; repeat' split
    all_goals rfl
  · unfold verbWrite; split
    · rw [doWrite_eq]; dsimp only; repeat' split
      all_goals rfl
    · rfl
  · unfold verbApply; split
    · rw [doApply_eq]; repeat' split
      all_goals rfl
    · rfl
  · unfold verbDiscard; split <;> rfl
  · unfold verbSwitch doSwitch; split
    · split
      · exact (frame_decideSwitch _ _ s).lock
      · rfl
    · rfl
  · unfold verbAuto doAuto; split
    · repeat' split
      · rfl
      · rfl
      · exact (frame_setAuto s).lock
      · rfl
      · rfl
    · rfl
  · unfold verbLock; split
    · rw [doLock_of_latched _ _ _ h]
    · rfl
  · unfold verbEvents; split <;> rfl
  · unfold verbFlush; split <;> rfl
  · unfold verbSave doSave; repeat' split
    all_goals rfl
  · unfold verbCounters doCounters; split
    · split
      · dsimp only; split <;> rfl
      · rfl
    · rfl
  · unfold verbIdent; split <;> rfl

theorem serveUpTo_lock (n : Nat) {s : State} (h : s.tables.lock.mode = .latched) :
    (serveUpTo n s).tables.lock = s.tables.lock := by
  induction n generalizing s with
  | zero => rfl
  | succ n ih =>
    unfold serveUpTo
    split
    · rfl
    · next p _ =>
      have hserved : (serveRequest p s).tables.lock = s.tables.lock := by
        unfold serveRequest executeRequest
        split
        · exact runVerb_lock (s := takeRequest p s) _ _ h
        · rfl
      rw [ih (by rw [hserved]; exact h), hserved]

/-! #### The operations of a part that runs, as the clock groups them (R2, R92; log 2)

`Kept` does not serve here: it asks that a start-up and a power loss keep the property, and those two end a LATCHED lock (R120). -/

section

variable {k : TableMemory} {s : State} (hs : k.LatchedIn s.tables)

include hs

/-- What keeps the live tables or adopts a copy that passed validation keeps what the lock holds (R102, R114). -/
theorem latched_of_liveStep {t : State} (hlock : t.tables.lock = s.tables.lock) (hlive : s.LiveStep t) :
    k.LatchedIn t.tables := by
  obtain ⟨hlatched, hengaged, hheld, hcurve, hprofile, hroute⟩ := hs
  obtain hsame | ⟨hadopted, -, -, hcondition⟩ := hlive
  · exact ⟨hlatched, hengaged, hlock.trans hheld, by rw [hsame, hcurve], by rw [hsame, hprofile], by rw [hsame]; exact hroute⟩
  · rw [hheld] at hcondition
    obtain ⟨hcurve', hprofile', hroute'⟩ := agrees_of_lockCondition hengaged hcondition
    exact ⟨hlatched, hengaged, hlock.trans hheld, by rw [hadopted, hcurve', hcurve], by rw [hadopted, hprofile', hprofile],
      fun i hi hlocked => by rw [hadopted, hroute' i hi hlocked, hroute i hi hlocked]⟩

theorem latched_of_control {t : State} (hf : ControlFrame s t) : k.LatchedIn t.tables :=
  latched_of_liveStep hs hf.lock hf.live

theorem latched_makeSample : k.LatchedIn (makeSample s).tables :=
  latched_of_liveStep hs (sample_makeSample s).lock (sample_makeSample s).live

theorem latched_closeWindow (p : Port) : k.LatchedIn (closeWindow p s).tables := by
  obtain ⟨t, hf, he⟩ := closeWindow_frame p s
  rw [he]
  exact latched_of_liveStep hs hf.lock hf.live

theorem latched_runEngine : k.LatchedIn (runEngine s).tables :=
  latched_of_liveStep hs (serveUpTo_lock _ (by rw [hs.lock]; exact hs.latched)) (.inl (engine_runEngine s).live)

theorem latched_samplePanel (a b : Bool) : k.LatchedIn (samplePanel a b s).tables := by
  have hpress : ∀ (c : Bool) (x : Port) (u : State), k.LatchedIn u.tables → k.LatchedIn (if c = true then press x u else u).tables :=
    fun c x u hu => ite_of (P := fun v : State => k.LatchedIn v.tables) (latched_of_control hu (frame_press x u)) hu
  exact hpress _ _ _ (hpress _ _ _ hs)

theorem latched_makeSamples (n : Nat) : k.LatchedIn (makeSamples n s).tables := by
  induction n generalizing s with
  | zero => exact hs
  | succ n ih => exact ih (latched_makeSample hs)

theorem latched_finishSamples : k.LatchedIn (finishSamples s).tables := by
  unfold finishSamples
  split
  · exact latched_runEngine (latched_makeSamples hs _)
  · exact hs

theorem latched_atRequest : k.LatchedIn (atRequest s).tables := by
  unfold atRequest
  split
  · exact latched_finishSamples hs
  · exact hs

theorem latched_submitRequest (p : Port) (message : List Byte) : k.LatchedIn (submitRequest p message s).tables := by
  have htaken := latched_atRequest hs
  unfold submitRequest
  split
  · exact latched_runEngine (by rw [(lane_offerMessage p message _).rest]; exact htaken)
  · rw [(lane_raiseMgmtError p .long _).rest]; exact htaken

theorem latched_closeAndServe (p : Port) : k.LatchedIn (closeAndServe p s).tables :=
  latched_runEngine (latched_closeWindow hs p)

theorem latched_closeIfOpen (p : Port) : k.LatchedIn (closeIfOpen p s).tables := by
  unfold closeIfOpen
  split
  · exact hs
  · exact latched_closeAndServe hs p

theorem latched_nextPeriod : k.LatchedIn (nextPeriod s).tables := by
  show k.LatchedIn (endPeriod s).tables
  unfold endPeriod sampleIfDue
  have hclosed := latched_closeIfOpen (latched_closeIfOpen (latched_finishSamples hs) .a) .b
  split
  · split
    · exact hclosed
    · exact latched_samplePanel hclosed _ _
  · exact hs

theorem latched_atSample : k.LatchedIn (atSample s).tables := by
  unfold atSample
  split
  · exact hs
  · exact latched_nextPeriod hs

theorem latched_nextSample : k.LatchedIn (nextSample s).tables := by
  have hmade := latched_makeSample (latched_atSample hs)
  unfold nextSample lookAfterSpan
  split
  · exact latched_runEngine hmade
  · exact hmade

theorem latched_atWindow (p : Port) : k.LatchedIn (atWindow p s).tables := by
  unfold atWindow
  split
  · exact latched_finishSamples hs
  · exact latched_finishSamples (latched_nextPeriod hs)

theorem latched_atPanel : k.LatchedIn (atPanel s).tables := by
  unfold atPanel
  split
  · exact latched_finishSamples hs
  · exact latched_finishSamples (latched_nextPeriod hs)

theorem latched_closeIf (p : Port) (comesAbout : State → State → Bool) : k.LatchedIn (closeIf p comesAbout s).tables := by
  unfold closeIf
  dsimp only
  split
  · exact latched_closeAndServe (latched_atWindow hs p) p
  · exact hs

/-! #### The events of a sample, answered ahead of it (log 3) -/

theorem latched_sampleStep1 : k.LatchedIn (sampleStep1 s).tables :=
  latched_of_control hs (frame_sampleStep1 s)

theorem latched_answerStart (wanted : StartAction → Bool) : k.LatchedIn (answerStart wanted s).tables := by
  unfold answerStart
  dsimp only
  split
  · exact latched_of_control (latched_atSample hs) (frame_answerScheduled _)
  · exact hs

theorem latched_scheduledAnswered : k.LatchedIn (scheduledAnswered s).tables := by
  unfold scheduledAnswered
  split
  · exact latched_of_control hs (frame_answerScheduled s)
  · exact hs

theorem latched_fireAtSample : k.LatchedIn (fireAtSample s).tables := by
  have hnext := latched_atSample hs
  unfold fireAtSample
  dsimp only
  split
  · exact latched_of_control (latched_scheduledAnswered hnext) (frame_answerNow _)
  · split
    · next m _ =>
      split
      · have hfired := latched_of_control (latched_sampleStep1 hnext) (frame_controllerMark m _)
        exact latched_of_control hfired (t := recordAdoption (atSample s) _) (frame_recordAdoption _ _)
      · exact hs
    · exact hs

theorem latched_recordBehind (before : State) : k.LatchedIn (recordBehind before s).tables := by
  unfold recordBehind
  split
  · exact latched_of_control (latched_fireAtSample (latched_answerStart hs _)) (frame_recordAdoption _ _)
  · exact hs

theorem latched_adoptAtSample : k.LatchedIn (adoptAtSample s).tables := by
  have hnext := latched_atSample hs
  unfold adoptAtSample
  dsimp only
  split
  · exact latched_recordBehind (latched_of_control hnext (frame_tableSpanStart _)) _
  · split
    · next m _ =>
      split
      · have hmark := latched_of_control (latched_sampleStep1 hnext) (frame_tableMark m _)
        exact latched_recordBehind (s := keepMark m _) hmark _
      · exact hs
    · exact hs

theorem latched_endFadeAtSample : k.LatchedIn (endFadeAtSample s).tables := by
  unfold endFadeAtSample
  dsimp only
  split
  · exact latched_nextSample (latched_atSample hs)
  · exact hs

/-! #### The commands -/

theorem latched_sendLastSync : k.LatchedIn (sendLastSync s).tables := by
  unfold sendLastSync
  split
  · exact latched_finishSamples (latched_atSample hs)
  · exact hs

theorem latched_recentreAtWindow : k.LatchedIn (recentreAtWindow s).tables := by
  unfold recentreAtWindow
  split
  · exact latched_closeIf hs _ _
  all_goals exact hs

theorem latched_pressAtSampling (contact : Port) (otherClosed : Bool) :
    k.LatchedIn (pressAtSampling contact otherClosed s).tables := by
  unfold pressAtSampling
  dsimp only
  split
  · exact latched_samplePanel (latched_atPanel hs) _ _
  · exact hs

theorem latched_completeWrite (verified : Bool) : k.LatchedIn (completeWrite verified s).tables := by
  unfold completeWrite
  split
  · exact hs
  · split <;> exact hs

theorem latched_assertReset : k.LatchedIn (assertReset s).tables := by
  unfold assertReset
  split <;> exact hs

theorem latched_running {f : State → State} {t : State} (e : whileRunning f s = .next t) (hf : k.LatchedIn (f s).tables) :
    k.LatchedIn t.tables := by
  unfold whileRunning at e
  split at e
  · rw [(complete_next _ t).mp e]; exact hf
  · rw [(complete_next s t).mp e]; exact hs

/-- A LATCHED lock and what it locks outlast every command but START_UP and POWER_LOSS (R116, R119). -/
theorem latched_exec {c : Instr} {t : State} (hstart : ∀ kind rate, c ≠ .startUp kind rate) (hpower : c ≠ .powerLoss)
    (e : exec c s = .next t) : k.LatchedIn t.tables := by
  cases c with
  | startUp kind rate => exact (hstart kind rate rfl).elim
  | powerLoss => exact (hpower rfl).elim
  | resetNAsserted => rw [(complete_next _ t).mp e]; exact latched_assertReset hs
  | spanComplete p bytes => exact latched_running (f := fun s => s.setPort p (enterStore bytes (s.ports.get p))) hs e hs
  | spanPeriodStart => exact latched_running hs e (latched_nextPeriod hs)
  | syncCountdownExpiry => exact latched_running hs e (latched_sendLastSync hs)
  | programSample => exact latched_running hs e (latched_nextSample hs)
  | transitionStart => exact latched_running hs e (latched_answerStart hs _)
  | reversal => exact latched_running hs e (latched_answerStart hs _)
  | pendingSwitchFire => exact latched_running hs e (latched_fireAtSample hs)
  | fadeEnd => exact latched_running hs e (latched_endFadeAtSample hs)
  | adoption => exact latched_running hs e (latched_adoptAtSample hs)
  | windowClose p =>
    exact latched_running (f := fun s => closeAndServe p (atWindow p s)) hs e (latched_closeAndServe (latched_atWindow hs p) p)
  | absentRunReachesNDown p => exact latched_running hs e (latched_closeIf hs p _)
  | cleanCountReachesQOk p => exact latched_running hs e (latched_closeIf hs p _)
  | revert => exact latched_running hs e (latched_closeIf hs _ _)
  | skewAcceptance p => exact latched_running hs e (latched_closeIf hs p _)
  | recentre => exact latched_running hs e (latched_recentreAtWindow hs)
  | timeout p => exact latched_running hs e (latched_closeIf hs p _)
  | panelSampling a b key =>
    exact latched_running (f := fun s => samplePanel a b (setShowlock key (atPanel s))) hs e
      (latched_samplePanel (s := setShowlock key (atPanel s)) (latched_atPanel hs) a b)
  | press contact otherClosed => exact latched_running hs e (latched_pressAtSampling hs contact otherClosed)
  | storeCompletion verified => exact latched_running hs e (latched_completeWrite hs verified)
  | lock p tag operands key =>
    exact latched_running (f := fun s => submitRequest p (tag :: 0x08 :: operands) (setShowlock key (atRequest s))) hs e
      (latched_submitRequest (s := setShowlock key (atRequest s)) (latched_atRequest hs) p _)
  | _ => exact latched_running hs e (latched_submitRequest hs _ _)

end

/-- Settles O24: the lock and what it locks stand in the state that holds them, and each command keeps them. -/
theorem latchedLockHoldsTheLiveTables : Obligations.LatchedLockHoldsTheLiveTables := by
  unfold Obligations.LatchedLockHoldsTheLiveTables
  intro c s t hlatched hengaged hstart hpower hexec
  have hheld : s.tables.LatchedIn s.tables := ⟨hlatched, hengaged, rfl, rfl, rfl, fun _ _ _ => rfl⟩
  obtain ⟨-, -, hlock, hcurve, hprofile, hroute⟩ := latched_exec hheld hstart hpower hexec
  exact ⟨hlock, hcurve, hprofile, hroute⟩

end Sys2Proof.Machine

/-! ### Requests that only read, and requests refused by their form (R127, R130, R131, R138 to R142) -/

namespace Sys2Proof.Machine

/-! #### The verb and length tests (R127) -/

/-- A request that its verb refuses changes nothing but the reply queue (R127). -/
theorem whileRunning_refused {s : State} {p : Port} {tag verb : Byte} {operands : List Byte} {status : Status}
    (hserve : s.CanServe p) (hlength : operands.length ≤ 94)
    (hverb : runVerb verb operands (s.taking p) = refuse (s.taking p) status) :
    whileRunning (submitRequest p (tag :: verb :: operands)) s = .next (s.served s p tag verb status []) :=
  whileRunning_served (d := refuse s status) hserve hlength hverb rfl

/-- STATE, DISCARD, FLUSH, SAVE and IDENT take no operand bytes. -/
theorem refuse_of_some_operand {operands : List Byte} (h : operands.length ≠ 0) (s : State) :
    verbState operands s = refuse s .badLength ∧ verbDiscard operands s = refuse s .badLength
      ∧ verbFlush operands s = refuse s .badLength ∧ verbSave operands s = refuse s .badLength
      ∧ verbIdent operands s = refuse s .badLength := by
  cases operands with
  | nil => exact absurd rfl h
  | cons b rest => exact ⟨rfl, rfl, rfl, rfl, rfl⟩

/-- AUTO and EVENTS take one operand byte. -/
theorem refuse_of_not_one {operands : List Byte} (h : operands.length ≠ 1) (s : State) :
    verbAuto operands s = refuse s .badLength ∧ verbEvents operands s = refuse s .badLength := by
  rcases operands with - | ⟨a, - | ⟨b, rest⟩⟩
  · exact ⟨rfl, rfl⟩
  · exact absurd rfl h
  · exact ⟨rfl, rfl⟩

/-- APPLY and COUNTERS take two. -/
theorem refuse_of_not_two {operands : List Byte} (h : operands.length ≠ 2) (s : State) :
    verbApply operands s = refuse s .badLength ∧ verbCounters operands s = refuse s .badLength := by
  rcases operands with - | ⟨a, - | ⟨b, - | ⟨c, rest⟩⟩⟩
  · exact ⟨rfl, rfl⟩
  · exact ⟨rfl, rfl⟩
  · exact absurd rfl h
  · exact ⟨rfl, rfl⟩

/-- SWITCH and LOCK take three. -/
theorem refuse_of_not_three {operands : List Byte} (h : operands.length ≠ 3) (s : State) :
    verbSwitch operands s = refuse s .badLength ∧ verbLock operands s = refuse s .badLength := by
  rcases operands with - | ⟨a, - | ⟨b, - | ⟨c, - | ⟨d, rest⟩⟩⟩⟩
  · exact ⟨rfl, rfl⟩
  · exact ⟨rfl, rfl⟩
  · exact ⟨rfl, rfl⟩
  · exact absurd rfl h
  · exact ⟨rfl, rfl⟩

/-- READ takes five. -/
theorem verbRead_of_not_five {operands : List Byte} (h : operands.length ≠ 5) (s : State) :
    verbRead operands s = refuse s .badLength := by
  unfold verbRead
  split
  · exact absurd rfl h
  · rfl

/-- WRITE takes three or more. -/
theorem verbWrite_of_lt_three {operands : List Byte} (h : operands.length < 3) (s : State) :
    verbWrite operands s = refuse s .badLength := by
  unfold verbWrite
  split
  · simp only [List.length_cons] at h
    omega
  · rfl

/-- A LOCK request of the wrong length takes the level it carries, and is then refused (R117, R127). -/
theorem exec_lock_badLength {s : State} {p : Port} {operands : List Byte} (tag : Byte) (key : Bool) (hserve : s.CanServe p)
    (hlength : operands.length ≤ 94) (h : operands.length ≠ 3) :
    exec (.lock p tag operands key) s = .next (s.served (setShowlock key s) p tag 0x08 .badLength []) := by
  have hexec := whileRunning_of_running
    (f := fun s => submitRequest p (tag :: 0x08 :: operands) (setShowlock key (atRequest s))) hserve.1
  rw [atRequest_of_made hserve.2.1] at hexec
  have hserved := submitRequest_served (s := setShowlock key s) (u := setShowlock key s) (tag := tag) (verb := 0x08) hserve hlength
    (refuse_of_not_three h _).2 rfl
  exact hexec.trans (congrArg Host.Outcome.next hserved)

/-- Settles O54: each request is served at once, and its verb is refused by the verb test or by the length test of `runVerb`. -/
theorem unknownVerbsAndLengthsAreRefused : Obligations.UnknownVerbsAndLengthsAreRefused := by
  unfold Obligations.UnknownVerbsAndLengthsAreRefused
  intro s p tag operands hserve hlength
  have hrefused : ∀ {verb : Byte} {status : Status}, runVerb verb operands (s.taking p) = refuse (s.taking p) status →
      whileRunning (submitRequest p (tag :: verb :: operands)) s = .next (s.served s p tag verb status []) :=
    fun hverb => whileRunning_refused hserve hlength hverb
  refine ⟨fun verb hverb => hrefused (runVerb_of_unknown hverb _ _), fun h => ?_, fun h => ?_, fun h => ?_, fun h => ?_, fun h => ?_,
    fun h key => exec_lock_badLength tag key hserve hlength h, fun h => ?_⟩
  · obtain ⟨hstate, hdiscard, hflush, hsave, hident⟩ := refuse_of_some_operand h (s.taking p)
    exact ⟨hrefused hstate, hrefused hdiscard, hrefused hflush, hrefused hsave, hrefused hident⟩
  · exact hrefused (verbRead_of_not_five h _)
  · exact hrefused (verbWrite_of_lt_three h _)
  · obtain ⟨happly, hcounters⟩ := refuse_of_not_two h (s.taking p)
    exact ⟨hrefused happly, hrefused hcounters⟩
  · exact hrefused (refuse_of_not_three h _).1
  · obtain ⟨hauto, hevents⟩ := refuse_of_not_one h (s.taking p)
    exact ⟨hrefused hauto, hrefused hevents⟩

/-! #### IDENT and READ (R131, R142) -/

/-- The identity of the part, byte by byte (R142; 11.4). -/
theorem doIdent_eq (s : State) : doIdent s = ⟨s, .ok, [0x3A, 0x71, 0x19, 0x02, 0x01, if s.rate = .khz48 then 0 else 1]⟩ := by
  have hrate : rateCode s.rate = if s.rate = .khz48 then 0 else 1 := by cases s.rate <;> rfl
  unfold doIdent
  rw [hrate]
  rfl

/-- Settles O53: the request is served at once, and its payload is that of `doIdent_eq`. -/
theorem identReportsThePart : Obligations.IdentReportsThePart := by
  unfold Obligations.IdentReportsThePart
  intro s p tag hserve
  exact whileRunning_served (d := ⟨s, .ok, _⟩) hserve (by simp) (doIdent_eq (s.taking p)) rfl

/-- READ, test by test, with the indices of R131. -/
theorem doRead_eq (table copy : Byte) (first count : Nat) (s : State) :
    doRead table copy first count s = match tableOfCode table with
      | none => ⟨s, .badTable, []⟩
      | some t =>
        let n := min count t.maxEntries
        if t.lastIndex < first then ⟨s, .badIndex, []⟩
        else if 1 < copy.toNat then ⟨s, .badValue, []⟩
        else ⟨s, .ok, BitVec.ofNat 8 n :: (List.range n).flatMap fun j =>
          tableEntryBytes (if copy = 1 then s.tables.staged else s.tables.live) t ((first + j) % (t.lastIndex + 1))⟩ := by
  unfold doRead
  cases tableOfCode table with
  | none => rfl
  | some t =>
    dsimp only
    refine ite_congr rfl (fun _ => rfl) fun hindex => ?_
    rw [flagOfCode_eq]
    by_cases hcopy : 1 < copy.toNat
    · rw [if_pos hcopy, if_pos hcopy]
      rfl
    · rw [if_neg hcopy, if_neg hcopy]
      dsimp only [readEntries]
      rw [indicesFrom_eq t (Nat.le_of_not_lt hindex), List.flatMap_map]
      simp only [decide_eq_true_eq]
      rfl

/-- Settles O43: the request is served at once with the tests and the entries of `doRead_eq`. -/
theorem readReturnsEntriesWithWrap : Obligations.ReadReturnsEntriesWithWrap := by
  unfold Obligations.ReadReturnsEntriesWithWrap
  intro s p tag table copy hi lo count hserve
  have hserved : ∀ {status : Status} {payload : List Byte},
      doRead table copy (hi.toNat * 256 + lo.toNat) count.toNat (s.taking p) = ⟨s.taking p, status, payload⟩ →
      exec (.read p tag [table, copy, hi, lo, count]) s = .next (s.served s p tag 0x02 status payload) :=
    fun {status payload} hverb => whileRunning_served (d := ⟨s, status, payload⟩) hserve (by simp)
      (by rw [← natOfBytes_two] at hverb; exact hverb) rfl
  have htables : (s.taking p).tables = s.tables := rfl
  rw [doRead_eq, htables] at hserved
  cases htable : tableOfCode table with
  | none =>
    rw [htable] at hserved
    exact hserved rfl
  | some t =>
    rw [htable] at hserved
    dsimp only at hserved ⊢
    split_ifs at hserved ⊢
    all_goals exact hserved rfl

/-! #### EVENTS and FLUSH (R138, R139, R146) -/

theorem fillOf_cons (r : EventRecord) (rest : List EventRecord) : fillOf (r :: rest) = r.size + fillOf rest := rfl

/-- The records taken are the longest run from the front that stays within the number and the room given (R138). -/
theorem takeRecords_eq (n room : Nat) (l : List EventRecord) :
    ∃ k, k ≤ l.length ∧ k ≤ n ∧ fillOf (l.take k) ≤ room ∧ (k = l.length ∨ k = n ∨ room < fillOf (l.take (k + 1)))
      ∧ takeRecords n room l = (l.take k, l.drop k) := by
  induction l generalizing n room with
  | nil => exact ⟨0, Nat.le_refl _, Nat.zero_le _, Nat.zero_le _, .inl rfl, rfl⟩
  | cons r rest ih =>
    unfold takeRecords
    by_cases htake : 0 < n ∧ r.size ≤ room
    · obtain ⟨k, hlength, hnumber, hfill, hlongest, heq⟩ := ih (n - 1) (room - r.size)
      rw [if_pos htake, heq]
      refine ⟨k + 1, Nat.succ_le_succ hlength, by omega, ?_, ?_, rfl⟩
      · rw [List.take_succ_cons, fillOf_cons]
        omega
      · rw [List.take_succ_cons, fillOf_cons, List.length_cons]
        omega
    · rw [if_neg htake]
      refine ⟨0, Nat.zero_le _, Nat.zero_le _, Nat.zero_le _, ?_, rfl⟩
      have hfirst : fillOf ((r :: rest).take (0 + 1)) = r.size := rfl
      rw [hfirst]
      omega

/-- A maximum of 0 asks for one record (R138). -/
theorem maximum_eq (maximum : Byte) : (if maximum = 0 then 1 else maximum.toNat) = max 1 maximum.toNat := by
  have hzero : maximum = 0 ↔ maximum.toNat = 0 := byte_eq_iff maximum 0 (by decide)
  by_cases h : maximum.toNat = 0
  · rw [if_pos (hzero.mpr h), h]
    rfl
  · rw [if_neg fun h0 => h (hzero.mp h0)]
    omega

/-- Settles O51: the records of the reply are those of `takeRecords_eq`, and both requests are served at once. -/
theorem eventsAreReadOldestFirstOrFlushed : Obligations.EventsAreReadOldestFirstOrFlushed := by
  unfold Obligations.EventsAreReadOldestFirstOrFlushed
  intro s p tag maximum hserve
  refine ⟨?_, whileRunning_served (d := doFlush s) hserve (by simp) rfl rfl⟩
  obtain ⟨n, hlength, hnumber, hfill, hlongest, htake⟩ := takeRecords_eq (max 1 maximum.toNat) 88 s.events.records
  have hverb : ∀ t : State, t.events = s.events → doEvents maximum t
      = ⟨{ t with events := { t.events with records := s.events.records.drop n } }, .ok,
          [BitVec.ofNat 8 n, BitVec.ofNat 8 (s.events.records.length - n), BitVec.ofNat 8 s.events.lost]
            ++ (s.events.records.take n).flatMap EventRecord.bytes⟩ := fun t ht => by
    unfold doEvents
    rw [maximum_eq, ht, show Config.eventsReplyBytes = 88 from rfl]
    dsimp only
    rw [htake]
    dsimp only
    rw [List.length_take, List.length_drop, Nat.min_eq_left hlength]
    rfl
  exact ⟨n, hlength, hnumber, hfill, hlongest,
    whileRunning_served (d := ⟨{ s with events := { s.events with records := s.events.records.drop n } }, .ok, _⟩) hserve (by simp)
      (hverb (s.taking p) rfl) rfl⟩

/-! #### COUNTERS (R19, R141) -/

/-- A request served at once whose verb leaves the reply bytes of its port: its reply is placed behind them (R125 to R128). -/
theorem whileRunning_served_of_replies {s u : State} {p : Port} {tag verb : Byte} {operands : List Byte} {status : Status}
    {payload : List Byte} (hserve : s.CanServe p) (hlength : operands.length ≤ 94)
    (hverb : runVerb verb operands (s.taking p) = ⟨u.taking p, status, payload⟩)
    (hreplies : (u.ports.get p).replies = (s.ports.get p).replies) :
    whileRunning (submitRequest p (tag :: verb :: operands)) s = .next (s.served u p tag verb status payload) := by
  rw [whileRunning_of_running hserve.1, submitRequest_of_canServe hserve tag verb operands hlength, hverb, placeReply_taking]
  unfold State.served
  rw [hreplies]
  rfl

/-- The state with the counters of one port replaced. -/
def State.withCounters (s : State) (x : Port) (c : Counters) : State :=
  s.setPort x { s.ports.get x with counters := c }

/-- Taking a request and writing a port's counters touch different fields. -/
theorem withCounters_taking (s : State) (x p : Port) (c : Counters) :
    (s.taking p).withCounters x c = (s.withCounters x c).taking p := by
  cases x <;> cases p <;> rfl

theorem withCounters_replies (s : State) (x p : Port) (c : Counters) :
    ((s.withCounters x c).ports.get p).replies = (s.ports.get p).replies := by
  cases x <;> cases p <;> rfl

theorem taking_counters (s : State) (x p : Port) : ((s.taking p).ports.get x).counters = (s.ports.get x).counters := by
  cases x <;> cases p <;> rfl

/-- COUNTERS, test by test, with the eleven counts in the order of R19 (R141). -/
theorem doCounters_eq (port clear : Byte) (s : State) :
    doCounters port clear s =
      if port.toNat ≤ 1 ∧ clear.toNat ≤ 1 then
        let x : Port := if port = 0 then .a else .b
        ⟨if clear = 1 then s.withCounters x zeroCounters else s, .ok, port :: counterBytes (s.ports.get x).counters⟩
      else ⟨s, .badValue, []⟩ := by
  have hfirst : port = 0 ↔ port.toNat = 0 := byte_eq_iff port 0 (by decide)
  have hsecond : port = 1 ↔ port.toNat = 1 := byte_eq_iff port 1 (by decide)
  unfold doCounters
  rw [portOfCode_eq, flagOfCode_eq]
  by_cases hport : 1 < port.toNat
  · rw [if_pos hport, if_neg fun h : port.toNat ≤ 1 ∧ clear.toNat ≤ 1 => Nat.not_le_of_lt hport h.1]
    rfl
  · by_cases hclear : 1 < clear.toNat
    · rw [if_neg hport, if_pos hclear, if_neg fun h : port.toNat ≤ 1 ∧ clear.toNat ≤ 1 => Nat.not_le_of_lt hclear h.2]
      rfl
    · have hcode : portCode (some (if port = 0 then .a else .b)) = port := by
        by_cases h0 : port = 0
        · rw [if_pos h0, h0]
          rfl
        · have hne : port.toNat ≠ 0 := fun h => h0 (hfirst.mpr h)
          rw [if_neg h0, hsecond.mpr (by omega)]
          rfl
      have hvalues : port.toNat ≤ 1 ∧ clear.toNat ≤ 1 := ⟨Nat.le_of_not_lt hport, Nat.le_of_not_lt hclear⟩
      rw [if_neg hport, if_neg hclear, if_pos hvalues]
      dsimp only
      rw [hcode]
      simp only [decide_eq_true_eq]
      rfl

/-- Settles O52: the request is served at once with the tests of `doCounters_eq`, and its reply reads the counts before they are
zeroed. -/
theorem countersAreReadThenCleared : Obligations.CountersAreReadThenCleared := by
  unfold Obligations.CountersAreReadThenCleared
  intro s p tag port clear hserve
  have hserved : ∀ {u : State} {status : Status} {payload : List Byte},
      doCounters port clear (s.taking p) = ⟨u.taking p, status, payload⟩ → (u.ports.get p).replies = (s.ports.get p).replies →
      exec (.counters p tag [port, clear]) s = .next (s.served u p tag 0x0C status payload) :=
    fun hverb hreplies => whileRunning_served_of_replies hserve (by simp) hverb hreplies
  rw [doCounters_eq] at hserved
  simp only [taking_counters, withCounters_taking] at hserved
  by_cases hvalues : port.toNat ≤ 1 ∧ clear.toNat ≤ 1
  · simp only [if_pos hvalues] at hserved ⊢
    generalize (if port = 0 then Port.a else Port.b) = x at hserved ⊢
    by_cases hclear : clear = 1
    · rw [if_pos hclear] at hserved ⊢
      exact hserved rfl (withCounters_replies s x p _)
    · rw [if_neg hclear] at hserved ⊢
      exact hserved rfl rfl
  · rw [if_neg hvalues] at hserved ⊢
    exact hserved rfl rfl

/-! #### STATE (R130, R159; 11.4) -/

/-- The bytes of a pending switch record, with the song that only AT_SONG gives (R159; log 12). -/
theorem pendingSwitchBytes_eq (free : Byte) (pending : Option PendingSwitch) :
    ∃ song : Byte, pendingSwitchBytes free pending = (match pending with
        | none => [0xFF, 0, 0, 0]
        | some r => [portCode (some r.target), triggerCode r.trigger, song, switchCauseCode r.cause])
      ∧ ∀ r ∈ pending, ∀ n, r.trigger = .atSong n → song = n := by
  cases pending with
  | none => exact ⟨free, rfl, fun r hr => by cases hr⟩
  | some r =>
    refine ⟨songByte free r.trigger, rfl, fun r' hr n hn => ?_⟩
    obtain rfl := Option.some.inj hr
    rw [hn]
    rfl

/-- The bytes of a pending apply record, with the song that only AT_SONG gives (R159; log 12). -/
theorem applyRecordBytes_eq (free : Byte) (pending : Option ApplyRecord) :
    ∃ song : Byte, applyRecordBytes free pending = (match pending with
        | none => [0xFF, 0, 0]
        | some r => [triggerCode r.trigger, song, phaseCode r.phase])
      ∧ ∀ r ∈ pending, ∀ n, r.trigger = .atSong n → song = n := by
  cases pending with
  | none => exact ⟨free, rfl, fun r hr => by cases hr⟩
  | some r =>
    refine ⟨songByte free r.trigger, rfl, fun r' hr n hn => ?_⟩
    obtain rfl := Option.some.inj hr
    rw [hn]
    rfl

theorem pendingSwitchBytes_four (free : Byte) (pending : Option PendingSwitch) :
    ∃ w x y z, pendingSwitchBytes free pending = [w, x, y, z] := by
  cases pending <;> exact ⟨_, _, _, _, rfl⟩

theorem applyRecordBytes_three (free : Byte) (pending : Option ApplyRecord) :
    ∃ x y z, applyRecordBytes free pending = [x, y, z] := by
  cases pending <;> exact ⟨_, _, _, rfl⟩

/-- Bits 0 and 1 of the flags byte (11.4). -/
theorem stateFlags_bits (free : BitVec 6) (auto degraded : Bool) :
    (stateFlags free auto degraded).getLsbD 0 = auto ∧ (stateFlags free auto degraded).getLsbD 1 = degraded := by
  unfold stateFlags
  constructor
  · rw [BitVec.getLsbD_append, if_pos (by decide)]
    cases auto <;> rfl
  · rw [BitVec.getLsbD_append, if_neg (by decide), BitVec.getLsbD_append, if_pos (by decide)]
    cases degraded <;> rfl

/-- The accepted skew modulo 2^40, most significant byte first, and 0 when absent (R159). -/
theorem skewBytes_eq (accepted : Option Int) :
    let skew := ((accepted.getD 0) % 2 ^ 40).toNat
    skewBytes accepted = [BitVec.ofNat 8 (skew / 2 ^ 32), BitVec.ofNat 8 (skew / 2 ^ 24), BitVec.ofNat 8 (skew / 2 ^ 16),
      BitVec.ofNat 8 (skew / 2 ^ 8), BitVec.ofNat 8 skew] := by
  intro skew
  have hskew : (position40 (accepted.getD 0)).toNat = skew := by
    unfold position40
    rw [BitVec.toNat_ofInt]
    rfl
  unfold skewBytes
  rw [hskew]
  simp only [bytesOfNat, Nat.div_div_eq_div_mul]
  rfl

/-- The snapshot, block by block (11.4). -/
theorem statePayload_eq (s : State) :
    let skew := ((s.align.accepted.getD 0) % 2 ^ 40).toNat
    statePayload s =
      [modeCode s.ctrl.mode, portCode s.ctrl.mode.onAir, portCode s.ctrl.mode.target,
        BitVec.ofNat 8 (s.ctrl.q / 256), BitVec.ofNat 8 s.ctrl.q, BitVec.ofNat 8 (s.ctrl.len / 256), BitVec.ofNat 8 s.ctrl.len]
      ++ (pendingSwitchBytes (Config.unstatedSong s.free) s.ctrl.pendingSwitch
      ++ (applyRecordBytes (Config.unstatedSong (s.free + 1)) s.tables.apply
      ++ (stateFlags (Config.unstatedFlags s.free) s.ctrl.auto s.ctrl.degraded
      :: ([rxCode s.ports.a.rx, verdictCode s.health.a.verdict, BitVec.ofNat 8 s.health.a.score,
          rxCode s.ports.b.rx, verdictCode s.health.b.verdict, BitVec.ofNat 8 s.health.b.score]
      ++ ([alignStateCode (alignmentState s.align), BitVec.ofNat 8 (skew / 2 ^ 32), BitVec.ofNat 8 (skew / 2 ^ 24),
          BitVec.ofNat 8 (skew / 2 ^ 16), BitVec.ofNat 8 (skew / 2 ^ 8), BitVec.ofNat 8 skew,
          BitVec.ofNat 8 (s.align.delays.a / 256), BitVec.ofNat 8 s.align.delays.a,
          BitVec.ofNat 8 (s.align.delays.b / 256), BitVec.ofNat 8 s.align.delays.b]
      ++ [if s.store.writing.isSome then 1 else 0, BitVec.ofNat 8 s.tables.lock.code.val,
          if s.tables.lock.complement then 1 else 0, lockModeCode s.tables.lock.mode]))))) := by
  intro skew
  unfold statePayload
  rw [skewBytes_eq]
  simp only [List.append_assoc]
  rfl

/-- Settles O42: the request is served at once, and the snapshot is read off block by block. -/
theorem stateReplyIsTheSnapshot : Obligations.StateReplyIsTheSnapshot := by
  unfold Obligations.StateReplyIsTheSnapshot
  intro s p tag hserve skew
  have hports : ∀ x, portBytes (s.taking p) x = portBytes s x := fun x => by cases x <;> cases p <;> rfl
  have htaking : statePayload (s.taking p) = statePayload s := by
    unfold statePayload
    rw [hports, hports]
    rfl
  have hverb : doState (s.taking p) = ⟨State.taking { s with free := s.free + 2 } p, .ok, statePayload s⟩ := by
    rw [← htaking]
    rfl
  refine ⟨whileRunning_served (d := doState s) hserve (by simp) hverb rfl, ?_⟩
  obtain ⟨song, hswitch, hsong⟩ := pendingSwitchBytes_eq (Config.unstatedSong s.free) s.ctrl.pendingSwitch
  obtain ⟨song', happly, hsong'⟩ := applyRecordBytes_eq (Config.unstatedSong (s.free + 1)) s.tables.apply
  obtain ⟨w, x, y, z, hw⟩ := pendingSwitchBytes_four (Config.unstatedSong s.free) s.ctrl.pendingSwitch
  obtain ⟨x', y', z', hx⟩ := applyRecordBytes_three (Config.unstatedSong (s.free + 1)) s.tables.apply
  obtain ⟨hauto, hdegraded⟩ := stateFlags_bits (Config.unstatedFlags s.free) s.ctrl.auto s.ctrl.degraded
  rw [statePayload_eq, hw, hx]
  simp only [List.cons_append, List.nil_append]
  exact ⟨rfl, rfl, ⟨song, hw.symm.trans hswitch, hsong⟩, ⟨song', hx.symm.trans happly, hsong'⟩, hauto, hdegraded, rfl, rfl, rfl⟩

end Sys2Proof.Machine

/-! ### Framing and deframing agree (R121, R122, R128) -/

namespace Sys2Proof.Machine

/-- A run of lane bytes taken from the left, with what it gives put behind what was given before (R121). -/
theorem foldl_deframeByte (bytes : List Byte) (d : Deframer) (given : List DeframerOut) :
    bytes.foldl (fun (x : Deframer × List DeframerOut) b => ((deframeByte x.1 b).1, x.2 ++ (deframeByte x.1 b).2.toList)) (d, given)
      = ((deframeAll d bytes).1, given ++ (deframeAll d bytes).2) := by
  induction bytes generalizing d given with
  | nil => simp [deframeAll]
  | cons b rest ih =>
    rw [List.foldl_cons, ih]
    simp only [deframeAll, List.append_assoc]

/-- A message as the lanes carry it, but for the separator that closes it (R128). -/
def openedMessage (m : List Byte) : List Byte := 0xF4 :: m.flatMap escapeByte

theorem frameMessage_eq (m : List Byte) : frameMessage m = openedMessage m ++ [0xF4] := rfl

theorem openedMessage_append (m rest : List Byte) : openedMessage (m ++ rest) = openedMessage m ++ rest.flatMap escapeByte := by
  simp [openedMessage]

/-- The separator ends HUNT, and the bytes of a message that the body has room for are held (R121). -/
theorem deframeAll_openedMessage {d : Deframer} {m : List Byte} (hmode : d.mode = .hunt) (hroom : m.length ≤ 96) :
    deframeAll d (openedMessage m) = (⟨.body, m, !m.isEmpty, 0, d.continuity⟩, []) := by
  have hopen : deframeByte d 0xF4 = (d.emptied .body, none) := by simp [deframeByte, hmode]
  have hfill := deframeAll_escaped m (d := d.emptied .body) rfl (by simpa [Deframer.emptied] using hroom)
  simp only [openedMessage, deframeAll, hopen, hfill]
  simp [Deframer.emptied]

/-- A separator that comes in BODY closes the body (R122). -/
theorem deframeAll_separator (m : List Byte) (busy : Bool) (age : Nat) (continuity : Option SpanNumber) :
    deframeAll ⟨.body, m, busy, age, continuity⟩ [0xF4]
      = (⟨.body, [], false, 0, continuity⟩, match m with
          | [] => []
          | [_] => [.error .short]
          | body => [.message body]) := by
  rcases m with - | ⟨a, - | ⟨b, rest⟩⟩ <;> rfl

/-- No byte of an escaped message is a separator (R128). -/
theorem ne_separator_of_mem_escapeByte {b x : Byte} (h : x ∈ escapeByte b) : x ≠ 0xF4 := by
  unfold escapeByte at h
  split at h
  · revert x
    decide
  · next hb =>
    split at h
    · revert x
      decide
    · rw [List.mem_singleton] at h
      exact h ▸ hb

/-- In HUNT all bytes up to a separator are discarded (R121). -/
theorem deframeAll_discards {d : Deframer} {bytes : List Byte} (hmode : d.mode = .hunt) (h : ∀ x ∈ bytes, x ≠ 0xF4) :
    deframeAll d bytes = (d, []) := by
  induction bytes with
  | nil => rfl
  | cons b rest ih =>
    obtain ⟨hb, hrest⟩ := List.forall_mem_cons.mp h
    have hbyte : deframeByte d b = (d, none) := by
      unfold deframeByte
      rw [hmode]
      exact if_neg hb
    simp [deframeAll, hbyte, ih hrest]

theorem deframeAll_discards_escaped {d : Deframer} (m : List Byte) (hmode : d.mode = .hunt) :
    deframeAll d (m.flatMap escapeByte) = (d, []) :=
  deframeAll_discards hmode fun x hx => by
    obtain ⟨b, -, hb⟩ := List.mem_flatMap.mp hx
    exact ne_separator_of_mem_escapeByte hb

/-- The byte that a full body has no room for is a LONG error, escaped or not (R121). -/
theorem deframeAll_escapeByte_full {d : Deframer} (b : Byte) (hmode : d.mode = .body) (hfull : d.body.length = 96) :
    deframeAll d (escapeByte b) = (d.emptied .hunt, [.error .long]) := by
  have hbody : ¬ d.body.length < Config.messageBytes := by rw [hfull]; exact Nat.lt_irrefl 96
  rcases d with ⟨mode, body, busy, age, continuity⟩
  obtain rfl : mode = .body := hmode
  unfold escapeByte
  by_cases h4 : b = 0xF4
  · subst h4
    simp [deframeAll, deframeByte, appendByte, hbody, Deframer.emptied]
  · by_cases h5 : b = 0xF5
    · subst h5
      simp [deframeAll, deframeByte, appendByte, hbody, Deframer.emptied]
    · rw [if_neg h4, if_neg h5]
      simp only [deframeAll, deframeByte, appendByte, if_neg h4, if_neg h5, if_neg hbody]
      rfl

/-- The 97th byte of a message is a LONG error (R121). -/
theorem deframeAll_openedMessage_97 {d : Deframer} {m : List Byte} (hmode : d.mode = .hunt) (hlength : m.length = 97) :
    deframeAll d (openedMessage m) = (⟨.hunt, [], false, 0, d.continuity⟩, [.error .long]) := by
  obtain ⟨first, last, rfl⟩ : ∃ first last, m = first ++ [last] :=
    ⟨m.dropLast, m.getLast (by rintro rfl; cases hlength), (List.dropLast_append_getLast _).symm⟩
  have hfirst : first.length = 96 := by simpa using hlength
  rw [openedMessage_append, List.flatMap_singleton, deframeAll_append, deframeAll_openedMessage hmode hfirst.le,
    deframeAll_escapeByte_full last rfl hfirst]
  rfl

/-- After the LONG error the bytes up to the separator are discarded, and it opens the next message (R121). -/
theorem deframeAll_frameMessage_long {d : Deframer} {m : List Byte} (hmode : d.mode = .hunt) (hlong : 97 ≤ m.length) :
    deframeAll d (frameMessage m) = (⟨.body, [], false, 0, d.continuity⟩, [.error .long]) := by
  have hsplit : frameMessage m = openedMessage (m.take 97) ++ (m.drop 97).flatMap escapeByte ++ [0xF4] := by
    rw [← openedMessage_append, List.take_append_drop, frameMessage_eq]
  rw [hsplit, deframeAll_append, deframeAll_append,
    deframeAll_openedMessage_97 hmode (by rw [List.length_take, Nat.min_eq_left hlong]), deframeAll_discards_escaped _ rfl]
  rfl

/-- An escape byte that neither escaped code follows is an ESCAPE error, and a separator there opens the next message (R121). -/
theorem deframeAll_bad_escape {d : Deframer} {m : List Byte} {b : Byte} (hmode : d.mode = .hunt) (hroom : m.length ≤ 96)
    (h1 : b ≠ 0x01) (h2 : b ≠ 0x02) :
    deframeAll d (openedMessage m ++ [0xF5, b])
      = (⟨if b = 0xF4 then .body else .hunt, [], false, 0, d.continuity⟩, [.error .escape]) := by
  rw [deframeAll_append, deframeAll_openedMessage hmode hroom]
  by_cases hb : b = 0xF4
  · subst hb
    rfl
  · have hescape : deframeByte ⟨.body, m, !m.isEmpty, 0, d.continuity⟩ 0xF5 = (⟨.escape, m, true, 0, d.continuity⟩, none) := rfl
    simp only [deframeAll, hescape]
    simp only [deframeByte, if_neg h1, if_neg h2, if_neg hb]
    rfl

/-- Neither lane bytes nor what they complete touch the lane continuity (R121). -/
theorem deframeByte_continuity (d : Deframer) (b : Byte) : (deframeByte d b).1.continuity = d.continuity := by
  have happend : ∀ x, (appendByte d x).1.continuity = d.continuity := fun x => by
    unfold appendByte
    split <;> rfl
  unfold deframeByte closeBody
  split
  · split <;> rfl
  · split
    · split <;> rfl
    · split
      · rfl
      · exact happend b
  · split
    · exact happend _
    · split
      · exact happend _
      · split <;> rfl

theorem deframeAll_continuity (d : Deframer) (bytes : List Byte) : (deframeAll d bytes).1.continuity = d.continuity := by
  induction bytes generalizing d with
  | nil => rfl
  | cons b rest ih => exact (ih _).trans (deframeByte_continuity d b)

end Sys2Proof.Machine

/-! ### The errors of a window at its port (R19, R123 to R125) -/

namespace Sys2Proof.Machine

/-! #### What the deframer's errors count and record (R125, R145) -/

theorem ofKind_bump (c : Counters) (j k : MgmtErrorKind) :
    (c.bump j).ofKind k = if j = k then countUp (c.ofKind k) else c.ofKind k := by
  cases j <;> cases k <;> rfl

/-- A count raised n times over (R19). -/
def raisedBy (n count : Nat) : Nat := if n = 0 then count else min 4294967295 (count + n)

theorem raisedBy_countUp (n count : Nat) : raisedBy n (countUp count) = raisedBy (n + 1) count := by
  unfold raisedBy countUp satAdd
  rw [if_neg (Nat.succ_ne_zero n)]
  split <;> omega

theorem applyOuts_append (p : Port) (xs ys : List DeframerOut) (s : State) :
    applyOuts p (xs ++ ys) s = applyOuts p ys (applyOuts p xs s) :=
  List.foldl_append

/-- Errors leave the port's queue as it is (R125). -/
theorem silent_applyOuts (p : Port) {outs : List DeframerOut} (h : ∀ m, .message m ∉ outs) (s : State) :
    SilentFrame p s (applyOuts p outs s) := by
  induction outs generalizing s with
  | nil => exact .refl p s
  | cons out rest ih =>
    have hrest : ∀ m, .message m ∉ rest := fun m hm => h m (List.mem_cons_of_mem _ hm)
    cases out with
    | message m => exact absurd List.mem_cons_self (h m)
    | error k => exact (silent_raiseMgmtError p k s).trans (ih hrest _)

/-- Each error adds one to its kind's counter (R125). -/
theorem ofKind_applyOuts (p : Port) (k : MgmtErrorKind) {outs : List DeframerOut} (h : ∀ m, .message m ∉ outs) (s : State) :
    ((applyOuts p outs s).ports.get p).counters.ofKind k
      = raisedBy (outs.count (.error k)) ((s.ports.get p).counters.ofKind k) := by
  induction outs generalizing s with
  | nil => rfl
  | cons out rest ih =>
    have hrest : ∀ m, .message m ∉ rest := fun m hm => h m (List.mem_cons_of_mem _ hm)
    cases out with
    | message m => exact absurd List.mem_cons_self (h m)
    | error j =>
      have hraised : ((raiseMgmtError p j s).ports.get p).counters = (s.ports.get p).counters.bump j := by
        rw [raiseMgmtError_eq]
        dsimp only
        rw [PerPort.get_set_self]
      show ((applyOuts p rest (raiseMgmtError p j s)).ports.get p).counters.ofKind k = _
      rw [ih hrest, hraised, ofKind_bump, List.count_cons]
      by_cases hjk : j = k
      · subst hjk
        simp [raisedBy_countUp]
      · simp [hjk]

/-- A record that leaves its own room in the queue behind it was placed (R145). -/
theorem mem_offer_of_room_behind {q : EventQueue} {r : EventRecord} (h : fillOf (q.offer r).records + r.size ≤ Config.eventBytes) :
    r ∈ (q.offer r).records := by
  refine mem_offer (le_trans (Nat.add_le_add_right ?_ _) h)
  obtain ⟨tail, htail⟩ := records_prefix_offer q r
  rw [← htail]
  simp [fillOf]

theorem fillOf_le_of_prefix {xs ys : List EventRecord} (h : xs <+: ys) : fillOf xs ≤ fillOf ys := by
  obtain ⟨tail, rfl⟩ := h
  simp [fillOf]

/-- With room left at the end, the record of the last error of each kind is held, with that kind's final count (R125, R145). -/
theorem exists_record_of_error {p : Port} {k : MgmtErrorKind} {outs : List DeframerOut} {s : State} (h : ∀ m, .message m ∉ outs)
    (hk : .error k ∈ outs) (hroom : fillOf (applyOuts p outs s).events.records + 12 ≤ 1024) :
    ∃ r ∈ (applyOuts p outs s).events.records,
      r.body = .mgmtError p k (min 16777215 (((applyOuts p outs s).ports.get p).counters.ofKind k)) := by
  induction outs generalizing s with
  | nil => cases hk
  | cons out rest ih =>
    have hrest : ∀ m, .message m ∉ rest := fun m hm => h m (List.mem_cons_of_mem _ hm)
    by_cases hlater : .error k ∈ rest
    · exact ih hrest hlater hroom
    · obtain rfl : out = .error k := (List.mem_cons.mp hk).resolve_right hlater |>.symm
      have hprefix := Offered.records_prefix (silent_applyOuts p hrest (raiseMgmtError p k s)).lane.offered
      have hcount := ofKind_applyOuts p k hrest (raiseMgmtError p k s)
      rw [List.count_eq_zero_of_not_mem hlater] at hcount
      have hfill : fillOf (raiseMgmtError p k s).events.records + 12 ≤ Config.eventBytes :=
        le_trans (Nat.add_le_add_right (fillOf_le_of_prefix hprefix) 12) hroom
      have hplaced := mem_offer_of_room_behind (q := s.events)
        (r := ⟨.mgmtError p k (min 16777215 (((s.ports.get p).counters.bump k).ofKind k)), s.stamp⟩) hfill
      refine ⟨_, hprefix.subset hplaced, ?_⟩
      refine congrArg (fun n => EventBody.mgmtError p k (min 16777215 n)) (Eq.trans ?_ hcount.symm)
      rw [raiseMgmtError_eq]
      dsimp only
      rw [PerPort.get_set_self]
      rfl

/-! #### The deframer's steps of a window (R16, R123, R124) -/

/-- A step of the deframer at a port: what it gave applied, and its next state held (R121). -/
theorem stepDeframer_eq (p : Port) (f : Deframer → Deframer × Option DeframerOut) (s : State) :
    stepDeframer p f s
      = (applyOuts p (f (s.ports.get p).deframer).2.toList s).setDeframer p (f (s.ports.get p).deframer).1 := by
  unfold stepDeframer
  dsimp only
  rw [applyOut_setDeframer]
  cases (f (s.ports.get p).deframer).2 <;> rfl

/-- A span's number breaks the lane stream when it does not follow the continuity held, or, with none held, when it meets a message
begun (R123). -/
theorem laneBreaks_eq (d : Deframer) (number : SpanNumber) :
    laneBreaks d number = match d.continuity with
      | some n => decide (number ≠ n + 1)
      | none => decide (d.busy = true ∧ d.mode ≠ .hunt) := by
  unfold laneBreaks
  cases d.continuity with
  | some n => simp [bne, Bool.beq_eq_decide_eq]
  | none => simp [bne, Bool.beq_eq_decide_eq]

/-- The deframer that takes a span's lane bytes, once the span's number is compared (R121, R123). -/
theorem compareContinuity_eq (d : Deframer) (number : SpanNumber) :
    compareContinuity d number
      = (if laneBreaks d number = true then ⟨.hunt, [], false, 0, some number⟩ else { d with continuity := some number },
        if laneBreaks d number = true ∧ d.busy = true then some (.error .broken) else none) := by
  unfold compareContinuity breakLane
  cases laneBreaks d number <;> simp [Deframer.emptied]

/-- A lane that is handed to a port: what the comparison and the bytes gave applied in order, and the deframer they leave held (R121). -/
theorem handLane_eq (p : Port) (number : SpanNumber) (lane : List Byte) (s : State) :
    handLane p number lane s =
      let c := compareContinuity (s.ports.get p).deframer number
      (applyOuts p (c.2.toList ++ (deframeAll c.1 lane).2) s).setDeframer p (deframeAll c.1 lane).1 := by
  dsimp only
  unfold handLane
  rw [stepDeframer_eq, foldl_stepDeframer, setDeframer_ports, PerPort.get_set_self, applyOuts_setDeframer, setDeframer_setDeframer,
    applyOuts_append]

/-- The age of a message in progress, and the message that reaches 65 (R124). -/
theorem ageStep_eq (d : Deframer) :
    ageStep d = (if d.busy = false then d
        else if d.age < 64 then { d with age := d.age + 1 } else ⟨.hunt, [], false, 0, d.continuity⟩,
      if d.busy = true ∧ 64 ≤ d.age then some (.error .timeout) else none) := by
  unfold ageStep Deframer.emptied
  cases hbusy : d.busy with
  | false => simp
  | true =>
    by_cases hage : d.age < 64
    · have hnext : d.age + 1 < Config.messageAge := Nat.add_lt_add_right hage 1
      simp [hnext, hage, Nat.not_le_of_lt hage]
    · have hnext : ¬ d.age + 1 < Config.messageAge := fun h => hage (Nat.lt_of_add_lt_add_right h)
      simp [hnext, hage, Nat.le_of_not_lt hage]

theorem timesOut_eq (d : Deframer) : timesOut d = decide (d.busy = true ∧ 64 ≤ d.age) := by
  unfold timesOut
  cases d.busy <;> simp [Config.messageAge]

/-! #### A window close whose lane raises errors alone -/

/-- A window up to the deframer's age is its steps 1 to 4 and the lane (R5). -/
theorem windowUpToAge_eq (p : Port) (s : State) :
    windowUpToAge p (windowOutcome (s.ports.get p).store) s
      = handWindowLane p (s.portAfterWindow p).rx (s.outcome p) (s.reported p) := by
  unfold State.reported State.transitioned State.portAfterWindow
  rw [outcome_eq]
  rfl

/-- A window of port p that does not leave LOCKED: the lane is handed in the port of steps 1 to 3 (R6). -/
theorem reported_port {s : State} {p : Port} (h : (s.ports.get p).rx = .locked → (s.portAfterWindow p).rx = .locked) :
    (s.reported p).ports.get p = s.portAfterWindow p := by
  rw [reported_ports, transitioned_eq, if_neg fun hleaves => hleaves.2 (h hleaves.1)]
  exact PerPort.get_set_self _ _ _

/-- A window's lane gives these errors and leaves this deframer, whose age is still to be counted. -/
structure State.LaneGives (s : State) (p : Port) (d : Deframer) (outs : List DeframerOut) : Prop where
  handed : handWindowLane p (s.portAfterWindow p).rx (s.outcome p) (s.reported p)
    = (applyOuts p outs (s.reported p)).setDeframer p d
  errors : ∀ m, .message m ∉ outs

/-- All the errors of a window: those of its lane, and that of the age (R121 to R124). -/
def windowErrors (d : Deframer) (outs : List DeframerOut) : List DeframerOut := outs ++ (ageStep d).2.toList

theorem message_not_mem_windowErrors {d : Deframer} {outs : List DeframerOut} (h : ∀ m, .message m ∉ outs) (m : List Byte) :
    .message m ∉ windowErrors d outs := by
  have hage : .message m ∉ (ageStep d).2.toList := by
    rw [ageStep_eq]
    dsimp only
    split <;> simp
  unfold windowErrors
  rw [List.mem_append]
  exact not_or.mpr ⟨h m, hage⟩

/-- What the command leaves when the lane raises errors alone: the deframer with its age counted, and the errors counted and recorded
in order behind the window's reports. -/
theorem exec_windowClose_of_errors {s : State} {p : Port} {d : Deframer} {outs : List DeframerOut} (hdue : s.WindowDue p)
    (hlane : s.LaneGives p d outs) :
    ∃ t, exec (.windowClose p) s = .next t
      ∧ (t.ports.get p).deframer = (ageStep d).1
      ∧ (t.ports.get p).counters = ((applyOuts p (windowErrors d outs) (s.reported p)).ports.get p).counters
      ∧ t.events = (applyOuts p (windowErrors d outs) (s.reported p)).events := by
  have hclose : closeWindow p s =
      let u := (applyOuts p (windowErrors d outs) (s.reported p)).setDeframer p (ageStep d).1
      { u with clock := { u.clock with closed := u.clock.closed.set p true } } := by
    rw [closeWindow_eq, hlane.handed, stepDeframer_eq, setDeframer_ports, PerPort.get_set_self, applyOuts_setDeframer,
      setDeframer_setDeframer, ← applyOuts_append]
    rfl
  have hsilent := silent_applyOuts p (message_not_mem_windowErrors (d := d) hlane.errors) (s.reported p)
  have hrequests : ((closeWindow p s).ports.get p).requests = (s.ports.get p).requests := by
    rw [hclose]
    dsimp only
    rw [setDeframer_ports, PerPort.get_set_self]
    exact hsilent.port.requests.trans (quietPort_reported s p).requests
  refine ⟨_, exec_windowClose hdue, ?_⟩
  rw [runEngine_closeWindow hdue hrequests, settleLines_ports, settleLines_events, hclose]
  dsimp only
  rw [setDeframer_ports, PerPort.get_set_self]
  exact ⟨rfl, rfl, rfl⟩

/-- The error counters of a port are those before its window, until its lane is handed over (R19). -/
theorem ofKind_countWindow (o : WindowOutcome) (q : SequenceResult) (c : Counters) (k : MgmtErrorKind) :
    (countWindow o q c).ofKind k = c.ofKind k := by
  cases o <;> cases q <;> cases k <;> rfl

end Sys2Proof.Machine

/-! ### A message that times out, and a lane of errors (R121 to R125) -/

namespace Sys2Proof.Machine

/-! #### TIMEOUT (R124) -/

/-- TIMEOUT is the window close in which the message in progress comes of age (log 3). -/
theorem exec_timeout {s : State} {p : Port} (h : s.WindowDue p) :
    exec (.timeout p) s
      = if timesOut ((handWindowLane p (s.portAfterWindow p).rx (s.outcome p) (s.reported p)).ports.get p).deframer = true
        then exec (.windowClose p) s else .next s.settleLines := by
  obtain ⟨hrun, hbegun, hmade, hclosed, -⟩ := id h
  have hexec : exec (.timeout p) s = .next (closeIf p (timesOutIn p) s).settleLines := whileRunning_of_running hrun
  rw [hexec, exec_windowClose h]
  unfold closeIf timesOutIn
  dsimp only
  rw [atWindow_of_open hbegun hclosed hmade, windowUpToAge_eq]
  split <;> rfl

/-- A window that brings the deframer nothing: it is absent, or takes a span that follows the lane continuity with no lane byte, or
comes to a port that is not in training and not LOCKED (R16, R124). -/
abbrev State.BringsNothing (s : State) (p : Port) : Prop :=
  let x := s.ports.get p
  s.outcome p = .absent ∧ (x.rx = .locked → min 255 (x.absentRun + 1) < s.tables.live.nDown)
    ∨ (∃ f, s.outcome p = .valid f ∧ f.lane = [] ∧ x.rx = .locked ∧ (f.kind = .data ∨ f.kind = .idle)
        ∧ x.deframer.continuity = some (f.number - 1))
    ∨ (∃ f, s.outcome p = .valid f ∧ (x.rx = .standby ∨ x.rx = .down))

/-- The lane continuity after port p's next window, when that brings nothing that breaks the stream (R121). -/
def State.continuityAfter (s : State) (p : Port) : Option SpanNumber :=
  match s.outcome p with
  | .valid f => if (s.ports.get p).rx = .locked then some f.number else (s.ports.get p).deframer.continuity
  | _ => (s.ports.get p).deframer.continuity

theorem portAfterWindow_rx (s : State) (p : Port) :
    (s.portAfterWindow p).rx = (rxAfter s.live (s.ports.get p).rx (s.ports.get p).sync
      (absentRunAfter (s.outcome p) (s.ports.get p).absentRun) (s.outcome p)).1 := rfl

/-- A port that is down or in STANDBY makes no lock with one window (R7, R10). -/
theorem rxAfter_not_locked {t : Tables} {rx : RxState} {sync run : Nat} {f : ForwardSpan} (h : rx = .standby ∨ rx = .down) :
    (rxAfter t rx sync run (.valid f)).1 ≠ .locked := by
  obtain rfl | rfl := h
  · by_cases hkind : f.kind = .sync <;> simp [rxAfter, hkind]
  · by_cases hkind : f.kind = .sync <;> simp [rxAfter, hkind]

/-- A window that brings nothing does not leave LOCKED (R9). -/
theorem State.BringsNothing.stays {s : State} {p : Port} (h : s.BringsNothing p) (hrx : (s.ports.get p).rx = .locked) :
    (s.portAfterWindow p).rx = .locked := by
  rw [portAfterWindow_rx, hrx]
  obtain ⟨ho, hrun⟩ | ⟨f, ho, -, -, hkind, -⟩ | ⟨f, ho, hother⟩ := h
  · have hbelow : ¬ s.live.nDown ≤ min 255 ((s.ports.get p).absentRun + 1) := Nat.not_le_of_lt (hrun hrx)
    rw [ho, absentRunAfter_eq, if_pos rfl]
    simp only [rxAfter, if_neg hbelow]
  · rw [ho]
    exact rxAfter_locked_of_used hkind
  · rw [hrx] at hother
    simp at hother

/-- A port whose deframer stands is one whose own deframer is written again. -/
theorem setDeframer_self {s : State} {p : Port} {d : Deframer} (h : (s.ports.get p).deframer = d) : s.setDeframer p d = s := by
  subst h
  unfold State.setDeframer State.setPort
  rw [PerPort.set_get]

/-- A window that brings nothing leaves the deframer, but for its continuity, and raises no error before the age is counted. -/
theorem State.BringsNothing.laneGives {s : State} {p : Port} (h : s.BringsNothing p) :
    s.LaneGives p { (s.ports.get p).deframer with continuity := s.continuityAfter p } [] := by
  refine ⟨?_, fun m => List.not_mem_nil⟩
  have hport := reported_port h.stays
  have hdeframer : ((s.reported p).ports.get p).deframer = (s.ports.get p).deframer := by rw [hport]; rfl
  show _ = (s.reported p).setDeframer p _
  unfold State.continuityAfter
  obtain ⟨ho, -⟩ | ⟨f, ho, hlane, hrx, hkind, hfollows⟩ | ⟨f, ho, hrx⟩ := h
  · have hnothing : handWindowLane p (s.portAfterWindow p).rx .absent (s.reported p) = s.reported p := ite_self _
    rw [ho, hnothing]
    exact (setDeframer_self hdeframer).symm
  · have hnew := portAfterWindow_locked hrx ho hkind
    have hkept : laneBreaks (s.ports.get p).deframer f.number = false := by
      rw [laneBreaks_eq, hfollows]
      simp
    unfold handWindowLane
    rw [if_pos hnew, ho]
    dsimp only
    rw [show usedSpan (.valid f) = some f from if_pos hkind]
    dsimp only
    rw [handLane_eq, hlane, hdeframer, compareContinuity_eq, hkept, if_pos hrx]
    rfl
  · have hnew : (s.portAfterWindow p).rx ≠ .locked := by
      rw [portAfterWindow_rx, ho]
      exact rxAfter_not_locked hrx
    have hold : (s.ports.get p).rx ≠ .locked := by rintro hlocked; rw [hlocked] at hrx; simp at hrx
    unfold handWindowLane
    rw [if_neg hnew, ho]
    dsimp only
    rw [if_neg hold]
    exact (setDeframer_self hdeframer).symm

/-- An absent window counts as one, and compares no number (R11, R19). -/
theorem portAfterWindow_counters_of_absent {s : State} {p : Port} (h : s.outcome p = .absent) :
    (s.portAfterWindow p).counters
      = { (s.ports.get p).counters with absentWindows := countUp (s.ports.get p).counters.absentWindows } := by
  have hnumber : (expectedAfter (s.ports.get p).rx (s.portAfterWindow p).rx .absent (s.ports.get p).expected).2 ≠ .mismatched := by
    by_cases hlocked : (s.ports.get p).rx = .locked ∧ (s.portAfterWindow p).rx = .locked
    · rw [hlocked.1, hlocked.2]
      simp [expectedAfter, usedSpan]
    · exact expectedAfter_not_mismatched hlocked _ _
  show countWindow (s.outcome p) (expectedAfter (s.ports.get p).rx (s.portAfterWindow p).rx (s.outcome p) _).2 _ = _
  rw [h]
  unfold countWindow
  rw [if_neg hnumber]

/-- At a window that brings nothing, the age alone decides on TIMEOUT (R124; log 3). -/
theorem exec_timeout_of_nothing {s : State} {p : Port} (hdue : s.WindowDue p) (hbusy : (s.ports.get p).deframer.busy = true)
    (h : s.BringsNothing p) :
    exec (.timeout p) s
      = if 64 ≤ (s.ports.get p).deframer.age then exec (.windowClose p) s else .next s.settleLines := by
  rw [exec_timeout hdue, h.laneGives.handed, setDeframer_ports, PerPort.get_set_self, timesOut_eq]
  exact if_congr (decide_eq_true_iff.trans (and_iff_right hbusy)) rfl rfl

/-- At a window that brings nothing, a young message in progress ages by one (R124). -/
theorem exec_windowClose_of_young {s : State} {p : Port} (hdue : s.WindowDue p) (hbusy : (s.ports.get p).deframer.busy = true)
    (h : s.BringsNothing p) (hyoung : (s.ports.get p).deframer.age < 64) :
    ∃ t, exec (.windowClose p) s = .next t
      ∧ (t.ports.get p).deframer
        = { (s.ports.get p).deframer with age := (s.ports.get p).deframer.age + 1, continuity := s.continuityAfter p } := by
  obtain ⟨t, hexec, hdeframer, -, -⟩ := exec_windowClose_of_errors hdue h.laneGives
  refine ⟨t, hexec, hdeframer.trans ?_⟩
  rw [ageStep_eq]
  dsimp only
  rw [if_neg (by simp [hbusy]), if_pos hyoung]

/-- At a window that brings nothing, an old message in progress is discarded with a TIMEOUT error, counted and recorded
(R124, R125). -/
theorem exec_windowClose_of_old {s : State} {p : Port} (hdue : s.WindowDue p) (hbusy : (s.ports.get p).deframer.busy = true)
    (h : s.BringsNothing p) (hold : 64 ≤ (s.ports.get p).deframer.age) :
    ∃ t, exec (.windowClose p) s = .next t
      ∧ (t.ports.get p).deframer = ⟨.hunt, [], false, 0, s.continuityAfter p⟩
      ∧ (t.ports.get p).counters = (s.portAfterWindow p).counters.bump .timeout
      ∧ (fillOf t.events.records + 12 ≤ 1024 → ∃ r ∈ t.events.records,
          r.body = .mgmtError p .timeout (min 16777215 (t.ports.get p).counters.timeout)) := by
  obtain ⟨t, hexec, hdeframer, hcounters, hevents⟩ := exec_windowClose_of_errors hdue h.laneGives
  unfold windowErrors at hcounters hevents
  rw [ageStep_eq] at hdeframer hcounters hevents
  dsimp only at hdeframer hcounters hevents
  rw [if_pos ⟨hbusy, hold⟩] at hcounters hevents
  refine ⟨t, hexec, ?_, ?_, fun hroom => ?_⟩
  · rw [hdeframer, if_neg (by simp [hbusy]), if_neg (Nat.not_lt_of_le hold)]
  · rw [hcounters, ← reported_port h.stays]
    exact congrArg ShowPort.counters (PerPort.get_set_self _ _ _)
  · rw [hevents] at hroom ⊢
    rw [hcounters]
    exact exists_record_of_error (k := .timeout) (by simp) (by simp) hroom

/-- Settles O36: the window brings nothing before the age is counted, so the age decides alone. -/
theorem oldMessageTimesOut : Obligations.OldMessageTimesOut := by
  unfold Obligations.OldMessageTimesOut
  intro s p hdue hbusy x d c hwindow continuity
  have hnothing : s.BringsNothing p := hwindow
  have hcontinuity : s.continuityAfter p = continuity := by
    simp only [State.continuityAfter, continuity]
    cases s.outcome p <;> rfl
  have htimeout := exec_timeout_of_nothing hdue hbusy hnothing
  rw [← hcontinuity]
  refine ⟨fun hyoung => ⟨htimeout.trans (if_neg (Nat.not_le_of_lt hyoung)), exec_windowClose_of_young hdue hbusy hnothing hyoung⟩,
    fun hold => ?_⟩
  have hsame := htimeout.trans (if_pos hold)
  obtain ⟨t, hexec, hdeframer, hcounters, hrecord⟩ := exec_windowClose_of_old hdue hbusy hnothing hold
  have hcount : (t.ports.get p).counters.timeout = min 4294967295 (c.timeout + 1) := by
    rw [hcounters]
    exact congrArg countUp (ofKind_countWindow _ _ _ .timeout)
  refine ⟨hsame, t, hsame.trans hexec, hdeframer, hcount, fun ho => ?_, fun hroom => ?_⟩
  · rw [hcounters, portAfterWindow_counters_of_absent ho]
    rfl
  · rw [← hcount]
    exact hrecord hroom

/-! #### A lane that completes no message (R121 to R125) -/

/-- A LOCKED port, or one in training that has the SYNC spans it needs, is LOCKED after a valid DATA or IDLE span (R8, R9). -/
theorem portAfterWindow_locked_of_lane {s : State} {p : Port} {f : ForwardSpan} (ho : s.outcome p = .valid f)
    (hkind : f.kind = .data ∨ f.kind = .idle)
    (hrx : (s.ports.get p).rx = .locked ∨ (s.ports.get p).rx = .training ∧ s.tables.live.lSync ≤ (s.ports.get p).sync) :
    (s.portAfterWindow p).rx = .locked := by
  obtain hlocked | ⟨htraining, hsync⟩ := hrx
  · exact portAfterWindow_locked hlocked ho hkind
  · have hsync' : s.live.lSync ≤ (s.ports.get p).sync := hsync
    rw [portAfterWindow_rx, ho, htraining]
    obtain hdata | hidle := hkind
    · simp [rxAfter, hdata, hsync']
    · simp [rxAfter, hidle, hsync']

/-- A window that hands its lane to the deframer gives what the number and the bytes give (R16, R121, R123). -/
theorem laneGives_of_lane {s : State} {p : Port} {f : ForwardSpan} (ho : s.outcome p = .valid f)
    (hkind : f.kind = .data ∨ f.kind = .idle) (hlocked : (s.portAfterWindow p).rx = .locked)
    (h : ∀ m, .message m ∉ (deframeAll (compareContinuity (s.ports.get p).deframer f.number).1 f.lane).2) :
    let c := compareContinuity (s.ports.get p).deframer f.number
    s.LaneGives p (deframeAll c.1 f.lane).1 (c.2.toList ++ (deframeAll c.1 f.lane).2) := by
  intro c
  have hdeframer : ((s.reported p).ports.get p).deframer = (s.ports.get p).deframer := by
    rw [reported_port fun _ => hlocked]
    rfl
  refine ⟨?_, fun m => ?_⟩
  · unfold handWindowLane
    rw [if_pos hlocked, ho]
    dsimp only
    rw [show usedSpan (.valid f) = some f from if_pos hkind]
    dsimp only
    rw [handLane_eq, hdeframer]
  · rw [List.mem_append]
    refine not_or.mpr ⟨?_, h m⟩
    simp only [c, compareContinuity_eq]
    split <;> simp

/-- How often a window that hands its lane raises an error of a kind other than TIMEOUT (R121 to R123). -/
theorem count_windowErrors {d : Deframer} {number : SpanNumber} {left : Deframer} {outs : List DeframerOut} {k : MgmtErrorKind}
    (hk : k ≠ .timeout) :
    (windowErrors left ((compareContinuity d number).2.toList ++ outs)).count (.error k)
      = outs.count (.error k) + if k = .broken ∧ laneBreaks d number = true ∧ d.busy = true then 1 else 0 := by
  have hage : (ageStep left).2.toList.count (.error k) = 0 := by
    rw [ageStep_eq]
    dsimp only
    split
    · exact List.count_eq_zero_of_not_mem (by simp [hk])
    · rfl
  have hbroken : (compareContinuity d number).2.toList.count (.error k)
      = if k = .broken ∧ laneBreaks d number = true ∧ d.busy = true then 1 else 0 := by
    rw [compareContinuity_eq]
    dsimp only
    by_cases hbreaks : laneBreaks d number = true ∧ d.busy = true
    · rw [if_pos hbreaks]
      by_cases hkind : k = .broken
      · simp [hkind, hbreaks]
      · simp [hkind, Ne.symm hkind]
    · rw [if_neg hbreaks, if_neg fun h => hbreaks h.2]
      rfl
  unfold windowErrors
  rw [List.count_append, List.count_append, hage, hbroken]
  omega

/-- A window whose lane completes no message: the deframer, its age counted, and the counts and records of its errors (R121 to R125). -/
theorem exec_windowClose_of_lane {s : State} {p : Port} {f : ForwardSpan} (hdue : s.WindowDue p) (ho : s.outcome p = .valid f)
    (hkind : f.kind = .data ∨ f.kind = .idle)
    (hrx : (s.ports.get p).rx = .locked ∨ (s.ports.get p).rx = .training ∧ s.tables.live.lSync ≤ (s.ports.get p).sync) :
    let x := s.ports.get p
    let given := deframeAll (compareContinuity x.deframer f.number).1 f.lane
    (∀ m, .message m ∉ given.2) →
    ∃ t, exec (.windowClose p) s = .next t ∧ (t.ports.get p).deframer = (ageStep given.1).1
      ∧ ∀ k, k ≠ .timeout →
        let raised := given.2.count (.error k)
          + if k = .broken ∧ laneBreaks x.deframer f.number = true ∧ x.deframer.busy = true then 1 else 0
        let count := (t.ports.get p).counters.ofKind k
        count = raisedBy raised (x.counters.ofKind k)
        ∧ (0 < raised → fillOf t.events.records + 12 ≤ 1024 →
          ∃ r ∈ t.events.records, r.body = .mgmtError p k (min 16777215 count)) := by
  intro x given hgiven
  have hlocked := portAfterWindow_locked_of_lane ho hkind hrx
  have hlane := laneGives_of_lane ho hkind hlocked hgiven
  have herrors := message_not_mem_windowErrors (d := given.1) hlane.errors
  obtain ⟨t, hexec, hdeframer, hcounters, hevents⟩ := exec_windowClose_of_errors hdue hlane
  refine ⟨t, hexec, hdeframer, fun k hk => ?_⟩
  dsimp only
  rw [← count_windowErrors (left := given.1) hk, hevents, hcounters]
  refine ⟨?_, fun hraised hroom => exists_record_of_error herrors (List.count_pos_iff.mp hraised) hroom⟩
  rw [ofKind_applyOuts p k herrors, reported_port fun _ => hlocked]
  exact congrArg (raisedBy _) (ofKind_countWindow _ _ _ k)

/-- Settles O40: framing and its errors through the deframer, and a window whose lane raises errors alone. -/
theorem deframerInvertsFraming : Obligations.DeframerInvertsFraming := by
  unfold Obligations.DeframerInvertsFraming
  intro run opened
  have hrun : run = deframeAll := funext fun d => funext fun bytes => foldl_deframeByte bytes d []
  clear_value run
  subst hrun
  refine ⟨fun d m hmode hshort hlong => ?_, fun d b hmode => ?_, fun d m hmode hlong => ⟨?_, ?_, ?_⟩,
    fun d m b hmode hroom h1 h2 => deframeAll_bad_escape hmode hroom h1 h2, ?_⟩
  · rw [frameMessage_eq, deframeAll_append, deframeAll_openedMessage hmode hlong, deframeAll_separator]
    rcases m with - | ⟨a, - | ⟨b, rest⟩⟩
    · simp at hshort
    · simp at hshort
    · rfl
  · rw [frameMessage_eq, deframeAll_append, deframeAll_openedMessage hmode (by simp), deframeAll_separator]
    rfl
  · exact deframeAll_frameMessage_long hmode hlong
  · have hlength : (m.take 96).length = 96 := by rw [List.length_take]; omega
    have hheld : (m.take 96).isEmpty = false := by
      rw [List.isEmpty_eq_false_iff]
      rintro hnil
      rw [hnil] at hlength
      cases hlength
    have hfill := deframeAll_openedMessage hmode hlength.le
    rwa [hheld] at hfill
  · exact deframeAll_openedMessage_97 hmode (by rw [List.length_take]; omega)
  · intro s p f hdue ho hkind x d hrx gap handed left outs raised hnone
    have hgap : laneBreaks (s.ports.get p).deframer f.number = gap := laneBreaks_eq d f.number
    have hhanded : (compareContinuity (s.ports.get p).deframer f.number).1 = handed := by rw [compareContinuity_eq, hgap]
    have hclose := exec_windowClose_of_lane hdue ho hkind hrx
    dsimp only at hclose
    rw [hhanded, hgap] at hclose
    obtain ⟨t, hexec, hdeframer, hkinds⟩ := hclose hnone
    have hcontinuity : left.continuity = some f.number := by
      rw [show left.continuity = handed.continuity from deframeAll_continuity _ _]
      simp only [handed]
      split <;> rfl
    refine ⟨t, hexec, ?_, fun k hk => hkinds k ?_⟩
    · rw [hdeframer, ageStep_eq, hcontinuity]
    · rintro rfl
      simp at hk

end Sys2Proof.Machine

/-! ### The event queue stays whole (R143, R145, R146) -/

namespace Sys2Proof.Machine

/-- Whole records of at most 1024 bytes, and a lost count of at most 255: what `State.EventsFit` says of a state's queue (R145). -/
abbrev EventQueue.Fits (q : EventQueue) : Prop := fillOf q.records ≤ Config.eventBytes ∧ q.lost ≤ 255

theorem eventsFit_iff (s : State) : s.EventsFit ↔ s.events.Fits := Iff.rfl

/-- A record is placed where there is room for the whole of it; else the lost count alone changes, and stops at 255 (R145). -/
theorem EventQueue.Fits.offer {q : EventQueue} (h : q.Fits) (r : EventRecord) : (q.offer r).Fits := by
  obtain ⟨hfill, hlost⟩ := h
  unfold EventQueue.offer
  split
  · next hroom => exact ⟨by simpa [fillOf] using hroom, hlost⟩
  · exact ⟨hfill, Nat.min_le_left _ _⟩

theorem EventQueue.Fits.offers {q : EventQueue} (h : q.Fits) (rs : List EventRecord) : (rs.foldl EventQueue.offer q).Fits := by
  induction rs generalizing q with
  | nil => exact h
  | cons r rs ih => exact ih (h.offer r)

theorem fillOf_drop_le (n : Nat) (rs : List EventRecord) : fillOf (rs.drop n) ≤ fillOf rs :=
  ((List.drop_sublist n rs).map EventRecord.size).sum_le_sum fun _ _ => Nat.zero_le _

/-- Records leave from the front whole, and the lost count stands (R146). -/
theorem EventQueue.Fits.drop {q : EventQueue} (h : q.Fits) (n : Nat) : EventQueue.Fits { q with records := q.records.drop n } :=
  ⟨(fillOf_drop_le n q.records).trans h.1, h.2⟩

theorem EventQueue.fits_empty : EventQueue.Fits ⟨[], 0⟩ := by decide

theorem eventsFit_of_offered {s t : State} (ho : s.Offered t) (h : s.EventsFit) : t.EventsFit := by
  obtain ⟨rs, hrs⟩ := ho
  rw [eventsFit_iff, hrs]
  exact EventQueue.Fits.offers h rs

/-- What a request can do to the queue: records are offered to it, records leave it from the front, or it is emptied (R145, R146). -/
def State.EventsServed (s t : State) : Prop :=
  s.Offered t ∨ (∃ n, t.events = { s.events with records := s.events.records.drop n }) ∨ t.events = ⟨[], 0⟩

theorem eventsServed_of_eq {s t : State} (h : t.events = s.events) : s.EventsServed t := .inl ⟨[], h⟩

theorem eventsFit_of_served {s t : State} (hs : s.EventsServed t) (h : s.EventsFit) : t.EventsFit := by
  obtain hoffered | ⟨n, htaken⟩ | hflushed := hs
  · exact eventsFit_of_offered hoffered h
  · rw [eventsFit_iff, htaken]
    exact EventQueue.Fits.drop h n
  · rw [eventsFit_iff, hflushed]
    exact EventQueue.fits_empty

theorem doEvents_events (maximum : Byte) (s : State) :
    ∃ n, (doEvents maximum s).state.events = { s.events with records := s.events.records.drop n } := by
  obtain ⟨n, -, -, -, -, htake⟩ :=
    takeRecords_eq (if maximum = 0 then 1 else maximum.toNat) Config.eventsReplyBytes s.events.records
  exact ⟨n, congrArg (fun rs => { s.events with records := rs.2 }) htake⟩

/-- SWITCH and AUTO offer what the controller records, EVENTS takes records, FLUSH empties the queue, and no other verb reaches it. -/
theorem runVerb_eventsServed (verb : Byte) (operands : List Byte) (s : State) : s.EventsServed (runVerb verb operands s).state := by
  have stands : ∀ {t : State}, t.events = s.events → s.EventsServed t := eventsServed_of_eq
  refine runVerb_of (P := fun a => s.EventsServed a.state) verb operands s ?_ ?_ ?_ ?_ ?_ ?_ ?_ ?_ ?_ ?_ ?_ ?_ ?_ (stands rfl)
  · unfold verbState; split <;> exact stands rfl
  · unfold verbRead doRead; repeat' split
    all_goals exact stands rfl
  · unfold verbWrite; split
    · rw [doWrite_eq]; dsimp only; repeat' split
      all_goals exact stands rfl
    · exact stands rfl
  · unfold verbApply; split
    · rw [doApply_eq]; repeat' split
      all_goals exact stands rfl
    · exact stands rfl
  · unfold verbDiscard; split <;> exact stands rfl
  · unfold verbSwitch doSwitch; split
    · split
      · exact .inl (frame_decideSwitch _ _ s).offered
      · exact stands rfl
    · exact stands rfl
  · unfold verbAuto doAuto; split
    · repeat' split
      · exact stands rfl
      · exact stands rfl
      · exact .inl (frame_setAuto s).offered
      · exact stands rfl
      · exact stands rfl
    · exact stands rfl
  · unfold verbLock doLock; repeat' split
    all_goals exact stands rfl
  · unfold verbEvents; split
    · exact .inr (.inl (doEvents_events _ s))
    · exact stands rfl
  · unfold verbFlush; split
    · exact .inr (.inr rfl)
    · exact stands rfl
  · unfold verbSave doSave; repeat' split
    all_goals exact stands rfl
  · unfold verbCounters doCounters; split
    · split
      · dsimp only; split <;> exact stands rfl
      · exact stands rfl
    · exact stands rfl
  · unfold verbIdent; split <;> exact stands rfl

/-- A request reaches the queue through its verb alone: its taking and its reply leave the events. -/
theorem serveRequest_eventsServed (p : Port) (s : State) : s.EventsServed (serveRequest p s) := by
  unfold serveRequest executeRequest
  split
  · exact runVerb_eventsServed _ _ (takeRequest p s)
  · exact eventsServed_of_eq rfl

theorem eventsFit_runEngine (s : State) (h : s.EventsFit) : (runEngine s).EventsFit := by
  unfold runEngine
  generalize s.waitingRequests = n
  induction n generalizing s with
  | zero => exact h
  | succ n ih =>
    unfold serveUpTo
    split
    · exact h
    · next p _ => exact ih _ (eventsFit_of_served (serveRequest_eventsServed p s) h)

theorem eventsFit_closeWindow (p : Port) (s : State) (h : s.EventsFit) : (closeWindow p s).EventsFit := by
  obtain ⟨t, hf, he⟩ := closeWindow_frame p s
  have ht : t.EventsFit := eventsFit_of_offered hf.offered h
  rw [he]
  exact ht

theorem eventsFit_samplePanel (a b : Bool) (s : State) (h : s.EventsFit) : (samplePanel a b s).EventsFit := by
  have hpress : ∀ (c : Bool) (x : Port) (u : State), u.EventsFit → (if c = true then press x u else u).EventsFit :=
    fun c x u hu => ite_of (P := State.EventsFit) (eventsFit_of_offered (frame_press x u).offered hu) hu
  exact hpress _ _ _ (hpress _ _ _ h)

/-- What a load queues, at most one STORE_INVALID, fits the emptied queue (R149, R155). -/
theorem fits_loadRecords (loaded : Option StoreContents) : EventQueue.Fits ⟨loadRecords loaded, 0⟩ := by
  cases loaded with
  | none => exact (by decide : EventQueue.Fits ⟨[⟨.storeInvalid, 0⟩], 0⟩)
  | some _ => exact EventQueue.fits_empty

/-- Each operation that the commands are made of keeps the queue whole: it offers records, serves requests, or starts a new queue. -/
theorem eventsFit_kept : Kept State.EventsFit where
  lines _ _ h := h
  pins _ _ h := h
  startUp _ _ s _ := fits_loadRecords (loadable (interruptWrite s.store).copy)
  assertReset s h := by unfold assertReset; cases s.run <;> exact h
  losePower _ _ := EventQueue.fits_empty
  completeWrite v s h := by
    unfold completeWrite
    split
    · exact h
    · split <;> exact EventQueue.Fits.offer h _
  enterStore _ _ _ h := h
  begin _ h := h
  sendReturn _ _ h := h
  sample s _ h := eventsFit_of_offered (sample_makeSample s).offered h
  window := eventsFit_closeWindow
  panel := eventsFit_samplePanel
  engine := eventsFit_runEngine
  scheduled s h := eventsFit_of_offered (frame_answerScheduled s).offered h
  now s h := eventsFit_of_offered (frame_answerNow s).offered h
  table s h := eventsFit_of_offered (frame_tableSpanStart s).offered h
  record b s h := eventsFit_of_offered (frame_recordAdoption b s).offered h
  early _ _ h := h
  markSwitch m s h := eventsFit_of_offered (frame_controllerMark m s).offered h
  markApply m s h := eventsFit_of_offered (frame_tableMark m s).offered h
  offer p m s h := eventsFit_of_offered (lane_offerMessage p m s).offered h
  long p s h := eventsFit_of_offered (lane_raiseMgmtError p .long s).offered h

/-- Settles O55: each operation that a command is made of keeps the queue whole (`Kept`), so every step does. -/
theorem everyStepKeepsTheEventQueueWhole : Obligations.EveryStepKeepsTheEventQueueWhole := by
  unfold Obligations.EveryStepKeepsTheEventQueueWhole
  intro s t h hstep
  exact eventsFit_kept.step (fun _ _ hs => hs) s t h hstep

end Sys2Proof.Machine

/-! ### The settings store and start-up (R120, R150 to R155) -/

namespace Sys2Proof.Machine

/-! #### The stored copy (R150) -/

/-- A stored copy is valid when its check word matches and its tables are in range and pass the first two conditions of validation. -/
theorem storeValid_iff (c : StoredCopy) :
    storeValid c = true ↔ c.check = crc16 (storeBytes c.contents) ∧ tablesInRange c.contents.tables = true
      ∧ curvesShaped c.contents.tables = true ∧ thresholdsOrdered c.contents.tables = true := by
  simp only [storeValid, Bool.and_eq_true, beq_iff_eq, and_assoc]

/-- Where the default is not the value asked for, the value asked for is held. -/
theorem getD_eq_iff_of_ne {l : List Nat} {i d v : Nat} (h : d ≠ v) : l.getD i d = v ↔ l[i]? = some v := by
  rw [List.getD_eq_getElem?_getD]
  cases l[i]? <;> simp [h]

/-- The shapes of the four curves, point by point (R88, R102). -/
theorem curvesShaped_iff_getD (t : Tables) :
    curvesShaped t = true ↔ ∀ n < 4, t.curve.getD (65 * n) 1 = 0 ∧ t.curve.getD (65 * n + 64) 0 = 32768
      ∧ ∀ i < 64, t.curve.getD (65 * n + i) 0 ≤ t.curve.getD (65 * n + i + 1) 0 := by
  simp only [curvesShaped_iff, Fin.forall_iff, getD_eq_iff_of_ne (show 1 ≠ 0 by decide), getD_eq_iff_of_ne (show 0 ≠ 32768 by decide)]

/-- Settles O5: the judgement is the check word with `tablesInRange_iff`, `curvesShaped_iff_getD` and the threshold order. -/
theorem storedCopyIsJudgedWhole : Obligations.StoredCopyIsJudgedWhole := by
  unfold Obligations.StoredCopyIsJudgedWhole
  intro c
  rw [storeValid_iff, tablesInRange_iff, curvesShaped_iff_getD, thresholdsOrdered, decide_eq_true_iff]
  simp only [and_assoc, and_left_comm (b := c.contents.tables.profile.length = 28), Tables.field]

/-! #### The write in flight (R151 to R153) -/

/-- With the store IDLE nothing is interrupted. -/
theorem interruptWrite_of_idle {st : SettingsStore} (h : st.writing = none) : interruptWrite st = st := by
  rw [interruptWrite, h]

/-- An interrupted write leaves no stored copy (R153). -/
theorem interruptWrite_of_writing {st : SettingsStore} {c : StoreContents} (h : st.writing = some c) :
    interruptWrite st = ⟨none, none⟩ := by
  rw [interruptWrite, h]

theorem interruptWrite_eq (st : SettingsStore) : interruptWrite st = if st.writing = none then st else ⟨none, none⟩ := by
  cases h : st.writing with
  | none => rw [interruptWrite_of_idle h, if_pos rfl]
  | some c => rw [interruptWrite_of_writing h, if_neg (by simp)]

/-- The copy that an interruption leaves (R150, R153). -/
theorem interruptWrite_copy (st : SettingsStore) : (interruptWrite st).copy = if st.writing = none then st.copy else none := by
  rw [interruptWrite_eq, apply_ite SettingsStore.copy]

/-- SAVE with the store IDLE: the snapshot is taken and the write begins (R151). -/
theorem exec_save_of_idle {s : State} {p : Port} (tag : Byte) (hserve : s.CanServe p) (h : s.store.writing = none) :
    exec (.save p tag []) s
      = .next (s.served { s with store := ⟨none, some ⟨s.tables.live, s.tables.lock⟩⟩ } p tag 0x0B .pending []) := by
  have hsave : doSave (s.taking p)
      = ⟨State.taking { s with store := ⟨none, some ⟨s.tables.live, s.tables.lock⟩⟩ } p, .pending, []⟩ := by
    rw [doSave, show (s.taking p).store.writing = none from h]
    rfl
  exact whileRunning_served (d := ⟨{ s with store := ⟨none, some ⟨s.tables.live, s.tables.lock⟩⟩ }, .pending, []⟩) hserve
    (Nat.zero_le _) hsave rfl

/-- SAVE with a write in flight is refused (R140). -/
theorem exec_save_of_writing {s : State} {p : Port} {c : StoreContents} (tag : Byte) (hserve : s.CanServe p)
    (h : s.store.writing = some c) : exec (.save p tag []) s = .next (s.served s p tag 0x0B .busy []) := by
  have hsave : doSave (s.taking p) = refuse (s.taking p) .busy := by
    rw [doSave, show (s.taking p).store.writing = some c from h]
  exact whileRunning_refused hserve (Nat.zero_le _) hsave

/-- The end of a write whose verify succeeded (R152). -/
theorem completeWrite_of_verified {s : State} {c : StoreContents} (h : s.store.writing = some c) :
    completeWrite true s = { s with store := ⟨some (copyOf c), none⟩, events := s.recording [.storeDone] } := by
  rw [completeWrite, h]
  rfl

/-- The end of a write whose verify failed (R152). -/
theorem completeWrite_of_failed {s : State} {c : StoreContents} (h : s.store.writing = some c) :
    completeWrite false s = { s with store := ⟨none, none⟩, events := s.recording [.storeFail] } := by
  rw [completeWrite, h]
  rfl

/-- Settles O10: a SAVE is served at once by whether a write is in flight, and the end of a write by whether it verifies. -/
theorem saveWritesASnapshot : Obligations.SaveWritesASnapshot := by
  unfold Obligations.SaveWritesASnapshot
  refine fun s => ⟨fun p tag hserve => ?_, fun hrun verified => ?_⟩
  · cases h : s.store.writing with
    | none => rw [if_pos rfl, exec_save_of_idle tag hserve h]
    | some c => rw [if_neg (by simp), exec_save_of_writing tag hserve h]
  · refine (whileRunning_of_running hrun).trans (congrArg (fun t => Host.Outcome.next (State.settleLines t)) ?_)
    cases h : s.store.writing with
    | none => rw [completeWrite, h]
    | some c =>
      cases verified with
      | false => exact completeWrite_of_failed h
      | true => exact completeWrite_of_verified h

/-! #### RESET_N, power loss and the part that is stopped (R153, R154) -/

/-- The lines of a part that does not run are dark and released (R154). -/
theorem settleLines_of_stopped {s : State} (h : s.run ≠ .running) : s.settleLines = { s with lines := ⟨false, false, false⟩ } := by
  rw [State.settleLines, outputLines, if_neg h]

/-- ALERT of a part that runs follows its condition (R147). -/
theorem alert_of_running {s : State} (h : s.run = .running) : s.settleLines.lines.alert = alertCondition s := by
  rw [settleLines_lines, outputLines, if_pos h]

/-- RESET_N holds a part that runs and interrupts its write (R153, R154). -/
theorem assertReset_of_running {s : State} (h : s.run = .running) :
    assertReset s = { s with run := .held, pins := { s.pins with resetN := true }, store := interruptWrite s.store } := by
  rw [assertReset, h]

/-- A part that is held already, or has no power, only sees the line. -/
theorem assertReset_of_stopped {s : State} (h : s.run ≠ .running) :
    assertReset s = { s with pins := { s.pins with resetN := true } } := by
  unfold assertReset
  cases hrun : s.run with
  | running => exact absurd hrun h
  | held => rfl
  | off => rfl

/-- Settles O6: both commands leave a part that does not run, and keep of the store what `interruptWrite_eq` says. -/
theorem resetAndPowerLossStopThePart : Obligations.ResetAndPowerLossStopThePart := by
  unfold Obligations.ResetAndPowerLossStopThePart
  intro s
  rw [← interruptWrite_eq]
  refine ⟨congrArg Host.Outcome.next ?_, (losePower s).settleLines, rfl, rfl, rfl, rfl⟩
  by_cases h : s.run = .running
  · rw [if_pos h, assertReset_of_running h, settleLines_of_stopped (by simp)]
  · rw [if_neg h, assertReset_of_stopped h]
    exact settleLines_of_stopped h

/-- Every command but START_UP, RESET_N_ASSERTED and POWER_LOSS acts on a part that runs alone (R154). -/
theorem exec_eq_whileRunning {c : Instr} (hstart : ∀ kind rate, c ≠ .startUp kind rate) (hreset : c ≠ .resetNAsserted)
    (hpower : c ≠ .powerLoss) : ∃ f, ∀ s, exec c s = whileRunning f s := by
  cases c with
  | startUp kind rate => exact absurd rfl (hstart kind rate)
  | resetNAsserted => exact absurd rfl hreset
  | powerLoss => exact absurd rfl hpower
  | spanComplete p bytes => exact ⟨fun s => s.setPort p (enterStore bytes (s.ports.get p)), fun _ => rfl⟩
  | windowClose p => exact ⟨fun s => closeAndServe p (atWindow p s), fun _ => rfl⟩
  | panelSampling a b key => exact ⟨fun s => samplePanel a b (setShowlock key (atPanel s)), fun _ => rfl⟩
  | lock p tag operands key =>
    exact ⟨fun s => submitRequest p (tag :: 0x08 :: operands) (setShowlock key (atRequest s)), fun _ => rfl⟩
  | _ => exact ⟨_, fun _ => rfl⟩

/-- Settles O7: by `exec_eq_whileRunning` such a command keeps a stopped part, whose lines are dark and released. -/
theorem heldPartIgnoresCommands : Obligations.HeldPartIgnoresCommands := by
  unfold Obligations.HeldPartIgnoresCommands
  intro c s hstopped hstart hreset hpower
  obtain ⟨f, hexec⟩ := exec_eq_whileRunning hstart hreset hpower
  rw [hexec, whileRunning_of_stopped hstopped, settleLines_of_stopped hstopped]

/-! #### Start-up (R155) -/

/-- The lock record of a power-up: the stored one, with LATCHED taken as OPEN, or the open one (R120). -/
theorem lockAfter_powerUp (held : LockRecord) (loaded : Option StoreContents) :
    lockAfter .powerUp held loaded = match loaded with
      | some c => ⟨c.lock.code, c.lock.complement, if c.lock.mode = .line then .line else .openMode⟩
      | none => ⟨0, false, .openMode⟩ := by
  cases loaded with
  | none => rfl
  | some c =>
    obtain ⟨tables, code, complement, mode⟩ := c
    cases mode <;> rfl

/-- A part that is held in reset by a hard reset keeps its lock record, and any other start-up of a stopped part is a power-up
(R120, R154). -/
theorem lockAfter_startKind {run : RunState} (hstopped : run ≠ .running) (kind : ResetKind) (held : LockRecord)
    (loaded : Option StoreContents) :
    lockAfter (startKind run kind) held loaded
      = if run = .held ∧ kind = .hardReset then held else lockAfter .powerUp held loaded := by
  cases run with
  | running => exact absurd rfl hstopped
  | held => cases kind <;> rfl
  | off => rfl

/-- The contents of a valid copy are loaded (R155 step 3). -/
theorem loadable_of_valid {c : StoredCopy} (h : storeValid c = true) : loadable (some c) = some c.contents :=
  if_pos h

/-- Nothing is loaded of an invalid copy (R155 step 3). -/
theorem loadable_of_invalid {c : StoredCopy} (h : ¬storeValid c = true) : loadable (some c) = none :=
  if_neg h

/-- A start-up by the copy it finds and what it loads of it: every block at its reset value around the load (R155). -/
theorem startUp_eq {s : State} {copy : Option StoredCopy} {loaded : Option StoreContents}
    (hcopy : (interruptWrite s.store).copy = copy) (hload : loadable copy = loaded) (kind : ResetKind) (rate : Rate) :
    startUp kind rate s = State.fresh s.pending rate { s.pins with resetN := false } (loadedTables loaded)
      (lockAfter (startKind s.run kind) s.tables.lock loaded) copy (loadRecords loaded) s.free := by
  subst hcopy hload
  rfl

/-- Settles O4: the start-up is that of `startUp_eq`, for no copy, a valid copy and an invalid one. -/
theorem startUpLoadsAndResets : Obligations.StartUpLoadsAndResets := by
  unfold Obligations.StartUpLoadsAndResets
  intro s kind rate hstopped
  refine congrArg Host.Outcome.next ?_
  rw [startUp_eq (interruptWrite_copy s.store) rfl, lockAfter_startKind hstopped, lockAfter_powerUp]
  generalize (if s.store.writing = none then s.store.copy else none) = copy
  cases copy with
  | none => rfl
  | some c =>
    by_cases hvalid : storeValid c = true
    · simp only [loadable_of_valid hvalid, if_pos hvalid]
      rfl
    · simp only [loadable_of_invalid hvalid, if_neg hvalid]
      rfl

/-- The record of a failed load has its bit in the factory mask (R100, R147). -/
theorem storeInvalid_alerts : recordAlerts factoryTables.alertMask ⟨.storeInvalid, 0⟩ = true := by decide

/-- A start-up that finds no stored copy loads the factory tables and places STORE_INVALID alone, which asserts ALERT (R147, R155). -/
theorem exec_startUp_of_no_copy {s : State} (hcopy : (interruptWrite s.store).copy = none) (kind : ResetKind) (rate : Rate) :
    ∃ t, exec (.startUp kind rate) s = .next t ∧ t.store = ⟨none, none⟩ ∧ t.tables.live = factoryTables
      ∧ t.tables.staged = factoryTables ∧ t.events = ⟨[⟨.storeInvalid, 0⟩], 0⟩ ∧ t.lines.alert = true
      ∧ t.tables.lock = lockAfter (startKind s.run kind) s.tables.lock none := by
  refine ⟨_, congrArg complete (startUp_eq hcopy rfl kind rate), rfl, rfl, rfl, rfl, ?_, rfl⟩
  rw [alert_of_running rfl, alertCondition, Bool.or_eq_true, List.any_eq_true]
  exact .inl ⟨⟨.storeInvalid, 0⟩, List.mem_singleton_self _, storeInvalid_alerts⟩

/-- Settles O8: neither interruption leaves a stored copy, and both start-ups are those of `exec_startUp_of_no_copy`. -/
theorem interruptedWriteLosesTheStore : Obligations.InterruptedWriteLosesTheStore := by
  unfold Obligations.InterruptedWriteLosesTheStore
  intro s snapshot kind rate hrun hwriting
  have hlost : interruptWrite s.store = ⟨none, none⟩ := interruptWrite_of_writing hwriting
  constructor
  · have hheld := assertReset_of_running hrun
    obtain ⟨t, hexec, hstore, hlive, hstaged, hevents, halert, hlock⟩ :=
      exec_startUp_of_no_copy (s := (assertReset s).settleLines) (by rw [hheld, settleLines_store, hlost]; rfl) kind rate
    refine ⟨_, t, rfl, hexec, hstore, hlive, hstaged, hevents, halert, ?_⟩
    rintro rfl
    rw [hlock, hheld]
    rfl
  · obtain ⟨t, hexec, hstore, hlive, hstaged, hevents, halert, hlock⟩ :=
      exec_startUp_of_no_copy (s := (losePower s).settleLines) (congrArg SettingsStore.copy hlost) kind rate
    exact ⟨_, t, rfl, hexec, hstore, hlive, hstaged, hevents, halert, hlock⟩

/-- The copy of sound live tables that a verified write leaves is valid (R150, R152). -/
theorem storeValid_copyOf {s : State} (h : s.TablesSound) (lock : LockRecord) : storeValid (copyOf ⟨s.tables.live, lock⟩) = true := by
  obtain ⟨hrange, -, hcurves, hthresholds⟩ := h
  exact (storeValid_iff _).mpr ⟨rfl, hrange, hcurves, hthresholds⟩

/-- Settles O9: the write stores the snapshot of the SAVE, the power loss keeps it, and the power-up judges it valid and loads it. -/
theorem savedSettingsSurviveAPowerCycle : Obligations.SavedSettingsSurviveAPowerCycle := by
  unfold Obligations.SavedSettingsSurviveAPowerCycle
  intro s p tag kind rate hserve hidle hsound
  have hvalid := storeValid_copyOf hsound s.tables.lock
  have hsave := exec_save_of_idle tag hserve hidle
  generalize ht : s.served { s with store := ⟨none, some ⟨s.tables.live, s.tables.lock⟩⟩ } p tag 0x0B .pending [] = t at hsave
  have hrun : t.run = .running := by rw [← ht]; exact hserve.1
  have hwriting : t.store.writing = some ⟨s.tables.live, s.tables.lock⟩ := by rw [← ht]; rfl
  have hcopy : (completeWrite true t).store = ⟨some (copyOf ⟨s.tables.live, s.tables.lock⟩), none⟩ := by
    rw [completeWrite_of_verified hwriting]
  have hkept : (interruptWrite (losePower (completeWrite true t).settleLines).settleLines.store).copy
      = some (copyOf ⟨s.tables.live, s.tables.lock⟩) := by
    show (interruptWrite (completeWrite true t).store).copy = _
    rw [hcopy]
    rfl
  exact ⟨t, _, _, _, hsave, whileRunning_of_running hrun, rfl,
    congrArg complete (startUp_eq hkept (loadable_of_valid hvalid) kind rate), rfl, rfl, rfl,
    lockAfter_powerUp openLock (some ⟨s.tables.live, s.tables.lock⟩), rfl⟩

/-! #### Every block at its reset value (R155) -/

/-- A reset leaves each port FAILED with score 255 and out of LOCKED (R20, R38). -/
theorem verdictsNeedLock_fresh (q : List Instr) (r : Rate) (x : InputLines) (t : Tables) (l : LockRecord) (c : Option StoredCopy)
    (rs : List EventRecord) (n : Nat) : (State.fresh q r x t l c rs n).VerdictsNeedLock := by
  have hport : (resetHealth.lockView = true ↔ resetPort.rx = .locked)
      ∧ (resetPort.rx ≠ .locked → resetHealth.verdict = .failed ∧ resetHealth.score = 255)
      ∧ resetHealth.score ≤ 255 ∧ resetHealth.clean ≤ 255 := by decide
  exact ⟨hport, hport⟩

/-- Every block at its reset value around valid tables, with records that fit, is a sound state. -/
theorem sound_fresh {t : Tables} {rs : List EventRecord} (hrange : tablesInRange t = true) (hcurves : curvesShaped t = true)
    (hthresholds : thresholdsOrdered t = true) (hrecords : EventQueue.Fits ⟨rs, 0⟩) (q : List Instr) (r : Rate) (x : InputLines)
    (l : LockRecord) (c : Option StoredCopy) (n : Nat) : (State.fresh q r x t l c rs n).Sound := by
  obtain ⟨htables, hdelays⟩ := tablesAndDelays_fresh hrange hcurves hthresholds q r x l c rs n
  exact ⟨hrecords, htables, hdelays, armed_fresh q r x t l c rs n, verdictsNeedLock_fresh q r x t l c rs n,
    buffersBounded_fresh q r x t l c rs n⟩

/-- Settles O60: the part after reset has its blocks at their reset values, around the factory tables and the one record of the load. -/
theorem resetStateIsSound : Obligations.ResetStateIsSound := by
  unfold Obligations.ResetStateIsSound
  obtain ⟨hrange, hcurves, hthresholds⟩ := factoryTables_valid
  exact sound_fresh hrange hcurves hthresholds (fits_loadRecords none) [] .khz48 quietLines openLock none 0

end Sys2Proof.Machine

/-! ### The queue of commands (log 1) -/

namespace Sys2Proof.Machine

/-! #### The step takes the front command -/

theorem step_of_front {s : State} {c : Instr} {rest : List Instr} (h : s.pending = c :: rest) :
    step s = exec c { s with pending := rest } := by
  unfold step
  rw [h]

theorem step_of_empty {s : State} (h : s.pending = []) : step s = .next s := by
  unfold step
  rw [h]

/-- Settles O1: the two cases of the queue. -/
theorem stepRunsTheFrontCommand : Obligations.StepRunsTheFrontCommand := by
  unfold Obligations.StepRunsTheFrontCommand
  exact ⟨fun _ _ _ => step_of_front, fun _ => step_of_empty⟩

/-! #### No operation of a command touches the queue -/

theorem pressIf_pending (c : Prop) [Decidable c] (x : Port) (s : State) : (if c then press x s else s).pending = s.pending :=
  ite_of (P := fun t : State => t.pending = s.pending) (frame_press x s).pending rfl

theorem samplePanel_pending (a b : Bool) (s : State) : (samplePanel a b s).pending = s.pending :=
  (pressIf_pending _ .b _).trans (pressIf_pending _ .a _)

theorem closeWindow_pending (p : Port) (s : State) : (closeWindow p s).pending = s.pending :=
  (closeWindow_within p s).pending

theorem assertReset_pending (s : State) : (assertReset s).pending = s.pending := by
  unfold assertReset
  cases s.run <;> rfl

theorem completeWrite_pending (verified : Bool) (s : State) : (completeWrite verified s).pending = s.pending := by
  unfold completeWrite
  split
  · rfl
  · split <;> rfl

/-- Each operation that the commands are made of leaves the queue of commands as it is. A start-up and a power loss carry it over. -/
theorem pending_kept (q : List Instr) : Kept fun s => s.pending = q where
  lines _ _ h := h
  pins _ _ h := h
  startUp _ _ _ h := h
  assertReset s h := (assertReset_pending s).trans h
  losePower _ h := h
  completeWrite v s h := (completeWrite_pending v s).trans h
  enterStore _ _ _ h := h
  begin _ h := h
  sendReturn _ _ h := h
  sample s _ h := (sample_makeSample s).pending.trans h
  window p s h := (closeWindow_pending p s).trans h
  panel a b s h := (samplePanel_pending a b s).trans h
  engine s h := (engine_runEngine s).pending.trans h
  scheduled s h := (frame_answerScheduled s).pending.trans h
  now s h := (frame_answerNow s).pending.trans h
  table s h := (frame_tableSpanStart s).pending.trans h
  record b s h := (frame_recordAdoption b s).pending.trans h
  early _ _ h := h
  markSwitch m s h := (frame_controllerMark m s).pending.trans h
  markApply m s h := (frame_tableMark m s).pending.trans h
  offer p m s h := by rw [(lane_offerMessage p m s).rest]; exact h
  long p s h := by rw [(lane_raiseMgmtError p .long s).rest]; exact h

/-- Settles O2: every command ends in `complete`, which answers a next state, and its operations keep the queue (`Kept`). -/
theorem everyCommandCompletes : Obligations.EveryCommandCompletes := by
  unfold Obligations.EveryCommandCompletes
  intro c s
  obtain ⟨u, hcomplete⟩ := exec_completes c s
  have hnext : exec c s = .next u.settleLines := hcomplete.trans ((complete_next u _).mpr rfl)
  exact ⟨_, hnext, (pending_kept s.pending).exec c s _ rfl hnext⟩

end Sys2Proof.Machine

/-! ### Verdicts under the lock (R22, R30, R33, R34) -/

namespace Sys2Proof.Machine

/-- What R22, R30, R33 and R34 say of one port: its receiver and its health record agree. -/
abbrev HealthUnder (rx : RxState) (h : HealthRecord) : Prop :=
  (h.lockView = true ↔ rx = .locked) ∧ (rx ≠ .locked → h.verdict = .failed ∧ h.score = 255) ∧ h.score ≤ 255 ∧ h.clean ≤ 255

theorem verdictsNeedLock_iff (s : State) : s.VerdictsNeedLock ↔ ∀ p, HealthUnder (s.ports.get p).rx (s.health.get p) :=
  ⟨fun h p => by cases p; exacts [h.1, h.2], fun h => ⟨h .a, h .b⟩⟩

/-- An operation that leaves each receiver state and the health records keeps the agreement. -/
theorem verdictsNeedLock_of_eq {s t : State} (h : s.VerdictsNeedLock) (hrx : ∀ p, (t.ports.get p).rx = (s.ports.get p).rx)
    (hhealth : t.health = s.health) : t.VerdictsNeedLock := by
  rw [verdictsNeedLock_iff] at h ⊢
  intro p
  rw [hrx, hhealth]
  exact h p

theorem verdictsNeedLock_of_control {s t : State} (hf : ControlFrame s t) (h : s.VerdictsNeedLock) : t.VerdictsNeedLock :=
  verdictsNeedLock_of_eq h (fun p => by rw [hf.ports]) hf.health

theorem LaneFrame.rx {p : Port} {s t : State} (h : LaneFrame p s t) (q : Port) : (t.ports.get q).rx = (s.ports.get q).rx := by
  obtain rfl | rfl := Port.eq_or_other p q
  · exact h.receiver.rx
  · rw [h.other]

theorem verdictsNeedLock_of_lane {p : Port} {s t : State} (hf : LaneFrame p s t) (h : s.VerdictsNeedLock) : t.VerdictsNeedLock :=
  verdictsNeedLock_of_eq h hf.rx (by rw [hf.rest])

/-- A write of one port's record that leaves its receiver state keeps both. -/
theorem rx_setPort {s : State} {p : Port} {x : ShowPort} (hx : x.rx = (s.ports.get p).rx) (q : Port) :
    ((s.setPort p x).ports.get q).rx = (s.ports.get q).rx := by
  rw [setPort_ports]
  obtain rfl | rfl := Port.eq_or_other p q
  · rw [PerPort.get_set_self, hx]
  · rw [PerPort.get_set_other]

theorem enterStore_rx (bytes : List Byte) (x : ShowPort) : (enterStore bytes x).rx = x.rx :=
  ite_of (P := fun y : ShowPort => y.rx = x.rx) rfl rfl

/-! #### The record of an evaluated window, field by field (R29 to R33) -/

theorem updateEntries_lockView (r : WindowReport) (h : HealthRecord) : (updateEntries r h).lockView = h.lockView := by
  unfold updateEntries
  split <;> rfl

theorem evaluated_lockView (t : Tables) (r : WindowReport) (own other : HealthRecord) :
    (evaluated t r own other).lockView = own.lockView :=
  updateEntries_lockView r own

/-- A score stops at 255 (R30). -/
theorem scoreAfter_le {decay sum score : Nat} (h : score ≤ 255) : scoreAfter decay sum score ≤ 255 := by
  unfold scoreAfter
  split <;> omega

/-- A clean count stops at 255 (R33). -/
theorem verdictAfter_clean_le (t : Tables) (sum score : Nat) (v : Verdict) {clean : Nat} (h : clean ≤ 255) :
    (verdictAfter t sum score v clean).2 ≤ 255 := by
  cases v with
  | good => exact h
  | suspect => exact h
  | failed => exact ite_of (P := fun x : Verdict × Nat => x.2 ≤ 255) (Nat.zero_le _) h
  | recovering => exact ite_of (P := fun x : Verdict × Nat => x.2 ≤ 255) h (Nat.min_le_left _ _)

/-- The record after a window agrees with the receiver after it: evaluated in LOCKED, forced to FAILED by a loss of the lock, and else
that of a port that was out of LOCKED already (R21, R22, R34). -/
theorem healthAfter_under {t : Tables} {r : WindowReport} {old : RxState} {own other : HealthRecord}
    (hchanged : r.changed = (old != r.rx)) (h : HealthUnder old own) : HealthUnder r.rx (healthAfter t r own other) := by
  obtain ⟨hview, hout, hscore, hclean⟩ := h
  unfold healthAfter
  by_cases hlocked : r.rx = .locked
  · rw [if_pos hlocked]
    by_cases hold : old = .locked
    · have hsame : r.changed = false := by rw [hchanged, hold, hlocked]; rfl
      rw [hsame]
      refine ⟨iff_of_true ((evaluated_lockView _ _ _ _).trans (hview.mpr hold)) hlocked, fun hne => absurd hlocked hne,
        scoreAfter_le hscore, verdictAfter_clean_le _ _ _ _ hclean⟩
    · have hentry : r.changed = true := by rw [hchanged, hlocked]; exact bne_iff_ne.mpr hold
      rw [hentry]
      exact ⟨iff_of_true (evaluated_lockView _ _ _ _) hlocked, fun hne => absurd hlocked hne, scoreAfter_le (Nat.le_refl _),
        verdictAfter_clean_le _ _ _ _ (Nat.zero_le _)⟩
  · rw [if_neg hlocked]
    by_cases hold : old = .locked
    · have hlost : (r.changed && own.lockView) = true := by
        rw [hchanged, hview.mpr hold, hold, Bool.and_true]
        exact bne_iff_ne.mpr (Ne.symm hlocked)
      rw [if_pos hlost]
      exact ⟨iff_of_false Bool.false_ne_true hlocked, fun _ => ⟨rfl, rfl⟩, Nat.le_refl _, hclean⟩
    · have hunseen : ¬ own.lockView = true := mt hview.mp hold
      rw [if_neg fun hlost => hunseen (Bool.and_eq_true_iff.mp hlost).2]
      exact ⟨iff_of_false hunseen hlocked, fun _ => hout hold, hscore, hclean⟩

theorem verdictsNeedLock_closeWindow (p : Port) (s : State) (h : s.VerdictsNeedLock) : (closeWindow p s).VerdictsNeedLock := by
  rw [verdictsNeedLock_iff] at h ⊢
  intro q
  obtain rfl | rfl := Port.eq_or_other p q
  · rw [(closeWindow_receiver q s).rx, closeWindow_health, PerPort.get_set_self]
    exact healthAfter_under rfl (h q)
  · rw [(closeWindow_within p s).otherPort, (closeWindow_within p s).otherHealth]
    exact h p.other

theorem verdictsNeedLock_samplePanel (a b : Bool) (s : State) (h : s.VerdictsNeedLock) : (samplePanel a b s).VerdictsNeedLock := by
  have hpress : ∀ (c : Bool) (x : Port) (u : State), u.VerdictsNeedLock → (if c = true then press x u else u).VerdictsNeedLock :=
    fun c x u hu => ite_of (P := State.VerdictsNeedLock) (verdictsNeedLock_of_control (frame_press x u) hu) hu
  exact hpress _ _ _ (hpress _ _ _ h)

/-- Each operation that the commands are made of keeps the verdicts under the lock: a window close alone writes a receiver state or a
health record, but for the resets. -/
theorem verdictsNeedLock_kept : Kept State.VerdictsNeedLock where
  lines _ _ h := h
  pins _ _ h := h
  startUp _ _ _ _ := verdictsNeedLock_fresh _ _ _ _ _ _ _ _
  assertReset s h := by unfold assertReset; cases s.run <;> exact h
  losePower s _ := verdictsNeedLock_fresh s.pending s.rate s.pins factoryTables openLock (interruptWrite s.store).copy [] s.free
  completeWrite v s h := by
    unfold completeWrite
    split
    · exact h
    · split <;> exact h
  enterStore p b s h := verdictsNeedLock_of_eq h (rx_setPort (enterStore_rx b _)) rfl
  begin _ h := h
  sendReturn p s h := verdictsNeedLock_of_eq h
    (rx_setPort (s := s) (p := p) (x := { s.ports.get p with replies := (s.ports.get p).replies.drop Config.laneBytes }) rfl) rfl
  sample s _ h := verdictsNeedLock_of_eq h (fun p => by rw [(sample_makeSample s).ports]) (sample_makeSample s).health
  window := verdictsNeedLock_closeWindow
  panel := verdictsNeedLock_samplePanel
  engine s h := verdictsNeedLock_of_eq h (fun p => by rw [(engine_runEngine s).port p]) (engine_runEngine s).health
  scheduled s h := verdictsNeedLock_of_control (frame_answerScheduled s) h
  now s h := verdictsNeedLock_of_control (frame_answerNow s) h
  table s h := verdictsNeedLock_of_control (frame_tableSpanStart s) h
  record b s h := verdictsNeedLock_of_control (frame_recordAdoption b s) h
  early _ _ h := h
  markSwitch m s h := verdictsNeedLock_of_control (frame_controllerMark m s) h
  markApply m s h := verdictsNeedLock_of_control (frame_tableMark m s) h
  offer p m s h := verdictsNeedLock_of_lane (lane_offerMessage p m s) h
  long p s h := verdictsNeedLock_of_lane (lane_raiseMgmtError p .long s) h

/-- Settles O58: each operation that a command is made of keeps the verdicts under the lock (`Kept`), so every step does. -/
theorem everyStepKeepsVerdictsUnderLock : Obligations.EveryStepKeepsVerdictsUnderLock := by
  unfold Obligations.EveryStepKeepsVerdictsUnderLock
  intro s t h hstep
  exact verdictsNeedLock_kept.step (fun _ _ hs => hs) s t h hstep

end Sys2Proof.Machine

/-! ### The judgement of a LOCKED window (R21, R22, R29 to R33) -/

namespace Sys2Proof.Machine

/-! #### The heaviest fault (R31) -/

/-- Fault `k` stands in the list `ks`, raised and of nonzero weight; no raised fault of the list weighs more, and those before it weigh
less (R31). -/
def Tables.Heaviest (t : Tables) (raised : FaultKind → Bool) (ks : List FaultKind) (k : FaultKind) : Prop :=
  ∃ i, ks[i]? = some k ∧ raised k = true ∧ 0 < t.weight k ∧ ∀ (j : Nat) (k' : FaultKind), ks[j]? = some k' → raised k' = true →
    t.weight k' ≤ t.weight k ∧ (j < i → t.weight k' < t.weight k)

section

variable {t : Tables} {raised : FaultKind → Bool} {ks : List FaultKind} {a k : FaultKind}

/-- The heaviest fault stays so before a fault that is not raised or not heavier. -/
theorem Tables.Heaviest.concat (h : t.Heaviest raised ks k) (ha : raised a = true → t.weight a ≤ t.weight k) :
    t.Heaviest raised (ks ++ [a]) k := by
  obtain ⟨i, hi, hk, hpos, hmax⟩ := h
  have hlt : i < ks.length := (List.getElem?_eq_some_iff.mp hi).1
  refine ⟨i, by rw [List.getElem?_append_left hlt, hi], hk, hpos, fun j k' hj hk' => ?_⟩
  rcases Nat.lt_or_ge j ks.length with hjlt | hjge
  · rw [List.getElem?_append_left hjlt] at hj
    exact hmax j k' hj hk'
  · rw [List.getElem?_append_right hjge, List.getElem?_singleton] at hj
    split at hj
    · cases hj
      exact ⟨ha hk', fun hji => by omega⟩
    · cases hj

/-- A raised fault of nonzero weight that outweighs all those before it is the heaviest. -/
theorem heaviest_concat_self (ha : raised a = true) (hpos : 0 < t.weight a) (hless : ∀ k' ∈ ks, raised k' = true → t.weight k' < t.weight a) :
    t.Heaviest raised (ks ++ [a]) a := by
  refine ⟨ks.length, by simp, ha, hpos, fun j k' hj hk' => ?_⟩
  rcases Nat.lt_or_ge j ks.length with hjlt | hjge
  · rw [List.getElem?_append_left hjlt] at hj
    have hlt := hless k' (List.mem_of_getElem? hj) hk'
    exact ⟨hlt.le, fun _ => hlt⟩
  · rw [List.getElem?_append_right hjge, List.getElem?_singleton] at hj
    split at hj
    · cases hj
      exact ⟨Nat.le_refl _, fun hji => by omega⟩
    · cases hj

theorem Tables.Heaviest.weight_le (h : t.Heaviest raised ks k) {k' : FaultKind} (hmem : k' ∈ ks) (hk' : raised k' = true) :
    t.weight k' ≤ t.weight k := by
  obtain ⟨_, -, -, -, hmax⟩ := h
  obtain ⟨j, hj⟩ := List.mem_iff_getElem?.mp hmem
  exact (hmax j k' hj hk').1

end

/-- One fault more is weighed against the heaviest so far (R31). -/
theorem heaviestFault_concat (t : Tables) (faults : List FaultKind) (a : FaultKind) :
    heaviestFault t (faults ++ [a]) = match heaviestFault t faults with
      | .fault best => if t.weight best < t.weight a then .fault a else .fault best
      | cause => if 0 < t.weight a then .fault a else cause := by
  unfold heaviestFault
  rw [List.foldl_append]
  generalize faults.foldl _ HealthCause.noCause = cause
  cases cause <;> rfl

/-- The cause that a window's faults give: none when no raised fault has weight, else the heaviest, the earlier one on a tie (R31). -/
theorem heaviestFault_filter (t : Tables) (raised : FaultKind → Bool) (ks : List FaultKind) :
    heaviestFault t (ks.filter raised) = .noCause ∧ (∀ k ∈ ks, raised k = true → t.weight k = 0)
      ∨ ∃ k, heaviestFault t (ks.filter raised) = .fault k ∧ t.Heaviest raised ks k := by
  induction ks using List.reverseRecOn with
  | nil => exact .inl ⟨rfl, by simp⟩
  | append_singleton ks a ih =>
    rw [List.filter_append]
    by_cases ha : raised a = true
    · rw [List.filter_cons_of_pos ha, List.filter_nil, heaviestFault_concat]
      obtain ⟨hnone, hzero⟩ | ⟨k, hcause, hk⟩ := ih
      · rw [hnone]
        dsimp only
        split
        · next hpos => exact .inr ⟨a, rfl, heaviest_concat_self ha hpos fun k' hmem hk' => by rw [hzero k' hmem hk']; exact hpos⟩
        · next hnot =>
          refine .inl ⟨rfl, fun k' hmem hk' => ?_⟩
          obtain hmem | hmem := List.mem_append.mp hmem
          · exact hzero k' hmem hk'
          · rw [List.mem_singleton.mp hmem]
            exact Nat.eq_zero_of_not_pos hnot
      · rw [hcause]
        dsimp only
        split
        · next hlt =>
          exact .inr ⟨a, rfl, heaviest_concat_self ha (Nat.zero_lt_of_lt hlt) fun k' hmem hk' => (hk.weight_le hmem hk').trans_lt hlt⟩
        · next hnot => exact .inr ⟨k, rfl, hk.concat fun _ => Nat.le_of_not_lt hnot⟩
    · rw [List.filter_cons_of_neg ha, List.filter_nil, List.append_nil]
      obtain ⟨hnone, hzero⟩ | ⟨k, hcause, hk⟩ := ih
      · refine .inl ⟨hnone, fun k' hmem hk' => ?_⟩
        obtain hmem | hmem := List.mem_append.mp hmem
        · exact hzero k' hmem hk'
        · exact absurd (List.mem_singleton.mp hmem ▸ hk') ha
      · exact .inr ⟨k, hcause, hk.concat fun hraised => absurd hraised ha⟩

theorem raisedFaults_report (s : State) (p : Port) :
    raisedFaults (s.windowReport p) (s.judged p) (s.health.get p.other) s.tables.live.stopGrace = faultOrder.filter (s.raises p) :=
  List.filter_congr fun k _ => raisesFault_report s p k

theorem mem_faultOrder (k : FaultKind) : k ∈ faultOrder := by cases k <;> decide

/-- The weights of a window's faults sum to 0 just when each raised fault has weight 0. -/
theorem weightSum_eq_zero_iff (s : State) (p : Port) :
    s.weightSum p = 0 ↔ ∀ k, s.raises p k = true → s.tables.live.weight k = 0 := by
  unfold State.weightSum
  simp only [List.sum_eq_zero_iff, List.forall_mem_map, ite_eq_right_iff]
  exact forall_congr' fun k => ⟨fun h => h (mem_faultOrder k), fun h _ => h⟩

/-! #### The health record after a window (R21, R22, R29 to R34) -/

/-- A LOCKED window leaves the record that its report gives, judged against that of a lock entry if it is one (R21, R22). -/
theorem closeWindow_health_of_locked {s : State} {p : Port} (h : (s.portAfterWindow p).rx = .locked) :
    (closeWindow p s).health.get p = evaluated s.live (s.windowReport p) (s.judged p) (s.health.get p.other) := by
  rw [closeWindow_health_examined, examined_of_locked h, evaluateWindow_health, weighed_evaluated, PerPort.get_set_self]

/-- The command's health records are those of the close: the engine touches none. -/
theorem windowClose_health (s : State) (p : Port) : (runEngine (closeWindow p s)).health = (closeWindow p s).health :=
  (engine_runEngine _).health

/-- The entries of the record after a window are those of the DATA span it takes (R29). -/
theorem updateEntries_report (s : State) (p : Port) (h : HealthRecord) :
    updateEntries (s.windowReport p) h = match s.taken p .data with
      | some f => { h with lastData := some ⟨s.clock.window, f.position, f.run, f.heartbeat⟩,
                           lastRunning := if f.run then some f.position else h.lastRunning }
      | none => h := by
  unfold updateEntries
  rw [windowReport_dataSpan]
  rfl

/-- The score after a judged window (R30). -/
def State.scoreNext (s : State) (p : Port) : Nat :=
  if 0 < s.weightSum p then min 255 ((s.judged p).score + s.weightSum p) else (s.judged p).score - s.tables.live.decay

/-- The verdict and clean count after a judged window (R32, R33). -/
def State.verdictNext (s : State) (p : Port) : Verdict × Nat :=
  verdictAfter s.tables.live (s.weightSum p) (s.scoreNext p) (s.judged p).verdict (s.judged p).clean

/-- All that a window's judgement makes of the record that it is judged against (R29 to R33). -/
theorem evaluated_report (s : State) (p : Port) :
    evaluated s.live (s.windowReport p) (s.judged p) (s.health.get p.other) =
      { updateEntries (s.windowReport p) (s.judged p) with
        score := s.scoreNext p, verdict := (s.verdictNext p).1, clean := (s.verdictNext p).2
        cause := if (s.verdictNext p).1 = (s.judged p).verdict then (s.judged p).cause
          else heaviestFault s.tables.live (faultOrder.filter (s.raises p)) } := by
  unfold evaluated
  dsimp only [State.live]
  rw [faultSum_report, raisedFaults_report]
  rfl

/-- Settles O29: the engine touches no health record, and that of a LOCKED window is the judgement of its report, whose faults are those
of the rules. -/
theorem lockedWindowIsJudged : Obligations.LockedWindowIsJudged := by
  unfold Obligations.LockedWindowIsJudged
  intro s p hdue
  refine ⟨_, exec_windowClose hdue, ?_⟩
  rw [settleLines_ports, settleLines_health, (windowClose_received s p).rx, windowClose_health]
  intro hlocked h g sum l
  have hg : g = _ := (closeWindow_health_of_locked hlocked).trans (evaluated_report s p)
  have hcause : g.verdict ≠ h.verdict → g.cause = heaviestFault l (faultOrder.filter (s.raises p)) := fun hne => by
    rw [hg] at hne ⊢
    exact if_neg hne
  have hheaviest := heaviestFault_filter l (s.raises p) faultOrder
  refine ⟨?_, ?_, ?_, ?_, ?_, fun heq => ?_, fun hne hsum => ?_, fun hne hsum => ?_⟩
  · rw [hg]
    exact updateEntries_lockView _ _
  · rw [hg, updateEntries_report]
    cases s.taken p .data <;> rfl
  · rw [hg, updateEntries_report]
    cases s.taken p .data <;> rfl
  · rw [hg]
    rfl
  · rw [hg]
    show verdictAfter l sum (s.scoreNext p) h.verdict h.clean = _
    cases h.verdict <;> rfl
  · rw [hg] at heq ⊢
    exact if_pos heq
  · obtain ⟨hnone, -⟩ | ⟨k, -, i, -, hraised, hpos, -⟩ := hheaviest
    · exact (hcause hne).trans hnone
    · exact absurd ((weightSum_eq_zero_iff s p).mp hsum k hraised) hpos.ne'
  · obtain ⟨-, hzero⟩ | ⟨k, hk, i, hi, hraised, hpos, hmax⟩ := hheaviest
    · exact absurd ((weightSum_eq_zero_iff s p).mpr fun k => hzero k (mem_faultOrder k)) hsum.ne'
    · exact ⟨i, k, hi, hraised, hpos, (hcause hne).trans hk, hmax⟩

end Sys2Proof.Machine

/-! ### The loss of the lock (R9, R10, R34) -/

namespace Sys2Proof.Machine

/-! #### An event of a window close as a command of its own (log 3) -/

/-- Such a command is the window close that is due, if its event comes about in it, and else leaves the state. -/
theorem whileRunning_closeIf {s : State} {p : Port} (h : s.WindowDue p) (comesAbout : State → State → Bool) :
    whileRunning (closeIf p comesAbout) s
      = if comesAbout s (closeWindow p s) = true then exec (.windowClose p) s else .next s.settleLines := by
  obtain ⟨hrun, hbegun, hmade, hclosed, -⟩ := id h
  rw [whileRunning_of_running hrun, exec_windowClose h]
  unfold closeIf
  dsimp only
  rw [atWindow_of_open hbegun hclosed hmade]
  split <;> rfl

/-! #### The ways out of LOCKED (R9, R10) -/

/-- Port p's next window is the absent one that completes a run of N_DOWN (R6, R9, R10). -/
abbrev State.CompletesRun (s : State) (p : Port) : Prop :=
  s.outcome p = .absent ∧ s.tables.live.nDown ≤ min 255 ((s.ports.get p).absentRun + 1)

theorem closeWindow_rx (p : Port) (s : State) : ((closeWindow p s).ports.get p).rx = (s.portAfterWindow p).rx := by
  rw [(closeWindow_receiver p s).rx, ← outcome_eq]
  rfl

/-- The kind of the span that a window takes, as the terms of the statements name it. -/
theorem kindOf_outcome_iff (s : State) (p : Port) (kind : SpanKind) :
    kindOf (s.outcome p) = some kind ↔ (s.taken p kind).isSome = true := by
  unfold kindOf State.taken
  cases s.outcome p <;> simp

/-- A window takes no span that is absent. -/
theorem taken_of_absent {s : State} {p : Port} (h : s.outcome p = .absent) (kind : SpanKind) : s.taken p kind = none := by
  unfold State.taken
  rw [h]

/-- The run is long enough in an absent window just when that window completes it. -/
theorem completesRun_iff (s : State) (p : Port) :
    s.outcome p = .absent ∧ s.tables.live.nDown ≤ absentRunAfter (s.outcome p) (s.ports.get p).absentRun ↔ s.CompletesRun p := by
  rw [absentRunAfter_eq]
  exact and_congr_right fun h => by rw [if_pos h]

/-- The receiver of a LOCKED port after a window (R9). -/
theorem portAfterWindow_of_locked {s : State} {p : Port} (h : (s.ports.get p).rx = .locked) :
    (s.portAfterWindow p).rx = if (s.taken p .sync).isSome = true then .training else if s.CompletesRun p then .down
      else if (s.taken p .standby).isSome = true then .standby else .locked := by
  rw [portAfterWindow_rx, h, rxAfter_eq]
  unfold State.live
  simp only [completesRun_iff, kindOf_outcome_iff]
  split
  · rfl
  · split
    · rfl
    · split <;> rfl

/-- The receiver of a STANDBY port after a window (R10). -/
theorem portAfterWindow_of_standby {s : State} {p : Port} (h : (s.ports.get p).rx = .standby) :
    (s.portAfterWindow p).rx = if (s.taken p .sync).isSome = true then .training else if s.CompletesRun p then .down else .standby := by
  rw [portAfterWindow_rx, h, rxAfter_eq]
  unfold State.live
  simp only [completesRun_iff, kindOf_outcome_iff]
  split
  · rfl
  · split <;> rfl

/-- The receiver of a LOCKED or STANDBY port is DOWN after a window just when it completes the run (R9, R10). -/
theorem portAfterWindow_down_iff {s : State} {p : Port} (h : (s.ports.get p).rx = .locked ∨ (s.ports.get p).rx = .standby) :
    (s.portAfterWindow p).rx = .down ↔ s.CompletesRun p := by
  by_cases hrun : s.CompletesRun p
  · have hsync : ¬ (s.taken p .sync).isSome = true := by rw [taken_of_absent hrun.1]; exact Bool.false_ne_true
    refine iff_of_true ?_ hrun
    obtain hrx | hrx := h
    · rw [portAfterWindow_of_locked hrx, if_neg hsync, if_pos hrun]
    · rw [portAfterWindow_of_standby hrx, if_neg hsync, if_pos hrun]
  · refine iff_of_false ?_ hrun
    obtain hrx | hrx := h
    · rw [portAfterWindow_of_locked hrx, if_neg hrun]
      exact ite_of (P := (· ≠ RxState.down)) (by decide) (ite_of (P := (· ≠ RxState.down)) (by decide) (by decide))
    · rw [portAfterWindow_of_standby hrx, if_neg hrun]
      exact ite_of (P := (· ≠ RxState.down)) (by decide) (by decide)

/-! #### The forced failure (R34) -/

/-- A window after which the port is not LOCKED judges nothing: a lost lock forces the failure, and else the record stands (R21, R34). -/
theorem closeWindow_health_of_unlocked {s : State} {p : Port} (h : (s.portAfterWindow p).rx ≠ .locked) :
    (closeWindow p s).health.get p =
      if (s.ports.get p).rx ≠ (s.portAfterWindow p).rx ∧ (s.health.get p).lockView = true then
        forcedFailure (s.portAfterWindow p).rx (s.health.get p)
      else s.health.get p := by
  rw [closeWindow_health, PerPort.get_set_self, ← outcome_eq]
  refine (if_neg h).trans (if_congr ?_ rfl rfl)
  rw [Bool.and_eq_true]
  exact and_congr_left' bne_iff_ne

/-- The window in which a LOCKED port loses its lock forces the failure, with STANDBY as the cause when it goes to STANDBY (R34). -/
theorem closeWindow_health_of_lost {s : State} {p : Port} (hrx : (s.ports.get p).rx = .locked)
    (hview : (s.health.get p).lockView = true)
    (hleft : s.CompletesRun p ∨ (s.taken p .sync).isSome = true ∨ (s.taken p .standby).isSome = true) :
    (closeWindow p s).health.get p = { s.health.get p with
      score := 255, verdict := .failed, cause := if (s.taken p .standby).isSome = true then .standby else .notLocked
      lockView := false, lastData := none, lastRunning := none } := by
  have htable := portAfterWindow_of_locked hrx
  have hexclusive : (s.taken p .standby).isSome = true → ¬ (s.taken p .sync).isSome = true ∧ ¬ s.CompletesRun p := fun hstandby => by
    refine ⟨fun hsync => ?_, fun hrun => ?_⟩
    · rw [← kindOf_outcome_iff] at hsync hstandby
      cases hsync.symm.trans hstandby
    · rw [taken_of_absent hrun.1] at hstandby
      cases hstandby
  have hnew : (s.portAfterWindow p).rx ≠ .locked ∧ ((s.portAfterWindow p).rx = .standby ↔ (s.taken p .standby).isSome = true) := by
    by_cases hstandby : (s.taken p .standby).isSome = true
    · obtain ⟨hsync, hrun⟩ := hexclusive hstandby
      rw [if_neg hsync, if_neg hrun, if_pos hstandby] at htable
      simp [htable, hstandby]
    · by_cases hsync : (s.taken p .sync).isSome = true
      · rw [if_pos hsync] at htable
        simp [htable, hstandby]
      · rw [if_neg hsync, if_pos (hleft.resolve_right fun h => h.elim hsync hstandby)] at htable
        simp [htable, hstandby]
  obtain ⟨hunlocked, hcause⟩ := hnew
  rw [closeWindow_health_of_unlocked hunlocked, if_pos ⟨by rw [hrx]; exact hunlocked.symm, hview⟩]
  unfold forcedFailure
  simp only [hcause]

/-! #### ABSENT_RUN_REACHES_N_DOWN (R9, R10; log 3) -/

/-- The command of that name is the window close that is due, when that completes the run of a LOCKED or STANDBY port. -/
theorem exec_absentRunReachesNDown {s : State} {p : Port} (h : s.WindowDue p) :
    exec (.absentRunReachesNDown p) s =
      if ((s.ports.get p).rx = .locked ∨ (s.ports.get p).rx = .standby) ∧ s.CompletesRun p then exec (.windowClose p) s
      else .next s.settleLines := by
  refine (whileRunning_closeIf h _).trans (if_congr ?_ rfl rfl)
  unfold absentToDown
  rw [Bool.and_eq_true, Bool.and_eq_true, decide_eq_true_iff, decide_eq_true_iff, closeWindow_rx, List.isEmpty_iff, ← outcome_absent_iff]
  constructor
  · rintro ⟨⟨-, hrx⟩, hdown⟩
    exact ⟨hrx, (portAfterWindow_down_iff hrx).mp hdown⟩
  · rintro ⟨hrx, hrun⟩
    exact ⟨⟨hrun.1, hrx⟩, (portAfterWindow_down_iff hrx).mpr hrun⟩

/-- Settles O30: the forced failure of the close, which the engine leaves, and the command of the completed run as that close. -/
theorem losingLockForcesFailure : Obligations.LosingLockForcesFailure := by
  unfold Obligations.LosingLockForcesFailure
  intro s p hdue x lost left
  refine ⟨fun hrx hview hleft => ⟨_, exec_windowClose hdue, ?_⟩, fun hlost hrx => ?_, fun hnot => ?_⟩
  · rw [settleLines_health, windowClose_health]
    exact closeWindow_health_of_lost hrx hview hleft
  · have hsame := (exec_absentRunReachesNDown hdue).trans (if_pos ⟨hrx, hlost⟩)
    refine ⟨hsame, _, hsame.trans (exec_windowClose hdue), ?_⟩
    rw [settleLines_ports, (windowClose_received s p).rx]
    exact (portAfterWindow_down_iff hrx).mpr hlost
  · refine (exec_absentRunReachesNDown hdue).trans (if_neg ?_)
    rintro ⟨hrx, hlost⟩
    exact hnot.elim (fun h => h hlost) fun ⟨hlocked, hstandby⟩ => hrx.elim hlocked hstandby

end Sys2Proof.Machine

/-! ### The controller's answer to a window's verdict (R35, R62 to R67, R69; 4.11) -/

namespace Sys2Proof.Machine

/-! #### What an answer of the controller leaves (4.11) -/

/-- What a change of verdict asks the controller to decide: its state, its scheduled start and DEGRADED. -/
def State.standing (s : State) : Mode × Option ScheduledStart × Bool :=
  (s.ctrl.mode, s.ctrl.scheduled, s.ctrl.degraded)

/-- The controller's answer in state `u` is the state `v`: what it decides, and the records it places first. -/
structure Answers (u v : State) (after : Mode × Option ScheduledStart × Bool) (own : List EventBody) : Prop where
  standing : v.standing = after
  records : (u.recording own).records <+: v.events.records

theorem Answers.refl (u : State) : Answers u u (u.ctrl.mode, u.ctrl.scheduled, u.ctrl.degraded) [] := ⟨rfl, List.prefix_rfl⟩

/-- The start that the opening choice leaves when port p becomes ready in IDLE (R62). -/
def State.choiceFor (s : State) (p : Port) : ScheduledStart :=
  match s.ctrl.scheduled with
  | none => ⟨.opening, p, .opening⟩
  | some st => if st.action = .opening ∧ st.target = p.other ∧ (s.preferred = p ∨ s.ready s.preferred = true) then
      { st with target := s.preferred } else st

/-- The record of setting DEGRADED, when it was clear (R65). -/
def State.degradedRecord (s : State) : List EventBody :=
  if s.ctrl.degraded then [] else [.degraded s.ctrl.mode.onAir]

theorem Port.ne_iff_eq_other (x p : Port) : x ≠ p ↔ x = p.other := by cases x <;> cases p <;> decide

section

variable {u : State} {p y : Port} {st : ScheduledStart}

/-- The opening choice for a port that is ready (R62). -/
theorem answers_openingChoice (hready : u.ready p = true) :
    Answers u (openingChoice p u) (u.ctrl.mode, some (u.choiceFor p), u.ctrl.degraded) [] := by
  have hpreferred : u.ready u.preferred = true ↔ u.preferred = p ∨ u.ready u.preferred = true :=
    ⟨.inr, fun h => h.elim (fun heq => heq ▸ hready) id⟩
  unfold openingChoice State.choiceFor
  cases hst : u.ctrl.scheduled with
  | none => exact ⟨rfl, List.prefix_rfl⟩
  | some st =>
    have hsame : st.action = .opening ∧ st.target ≠ p ∧ u.ready u.preferred = true
        ↔ st.action = .opening ∧ st.target = p.other ∧ (u.preferred = p ∨ u.ready u.preferred = true) := by
      rw [Port.ne_iff_eq_other, ← hpreferred]
    by_cases hretarget : st.action = .opening ∧ st.target ≠ p ∧ u.ready u.preferred = true
    · dsimp only
      rw [if_pos hretarget, if_pos (hsame.mp hretarget)]
      exact ⟨rfl, List.prefix_rfl⟩
    · dsimp only
      rw [if_neg hretarget, if_neg (mt hsame.mpr hretarget), ← hst]
      exact .refl u

theorem answers_openingRechoice (hnone : u.ctrl.scheduled = none) :
    Answers u (openingRechoice p u)
      (u.ctrl.mode, if u.ready p = true then some ⟨.opening, p, .opening⟩ else none, u.ctrl.degraded) [] := by
  unfold openingRechoice
  split
  · next hready =>
    have hchoice : u.choiceFor p = ⟨.opening, p, .opening⟩ := by unfold State.choiceFor; rw [hnone]
    rw [← hchoice]
    exact answers_openingChoice hready
  · rw [← hnone]
    exact .refl u

/-- A failover is scheduled toward a port, and the pending switch record cancelled, with no start in the way (R64, R66). -/
theorem resolveDegraded_of_none (hnone : u.ctrl.scheduled = none) :
    resolveDegraded y u = { u with
      ctrl := { u.ctrl with pendingSwitch := none, scheduled := some ⟨.fade, y, .failure⟩ },
      mixer := { u.mixer with owedStart := false }, events := u.recording (replacedRecord u.ctrl.pendingSwitch) } := by
  unfold resolveDegraded
  rw [hnone]
  exact scheduleFailover_eq y u

theorem answers_resolveDegraded (hnone : u.ctrl.scheduled = none) :
    Answers u (resolveDegraded y u) (u.ctrl.mode, some ⟨.fade, y, .failure⟩, u.ctrl.degraded) (replacedRecord u.ctrl.pendingSwitch) := by
  rw [resolveDegraded_of_none hnone]
  exact ⟨rfl, List.prefix_rfl⟩

theorem answers_setDegraded (u : State) : Answers u (setDegraded u) (u.ctrl.mode, u.ctrl.scheduled, true) u.degradedRecord := by
  rw [setDegraded_eq]
  exact ⟨rfl, List.prefix_rfl⟩

/-- A start withdrawn in IDLE (R69). -/
theorem answers_withdrawStart_idle (hst : u.ctrl.scheduled = some st) (hmode : u.ctrl.mode = .idle) :
    Answers u (withdrawStart u)
      (.idle, if u.ready st.target.other = true then some ⟨.opening, st.target.other, .opening⟩ else none, u.ctrl.degraded) [] := by
  rw [withdrawStart_of_idle hst hmode]
  split
  · exact ⟨by rw [← hmode]; rfl, List.prefix_rfl⟩
  · exact ⟨by rw [← hmode]; rfl, List.prefix_rfl⟩

/-- A start withdrawn while port y is on air, or comes on air: DEGRADED is set when y is not ready (R69). -/
theorem answers_withdrawStart_judged (hst : u.ctrl.scheduled = some st) (hmode : u.ctrl.mode = .on y ∨ u.ctrl.mode = .fade y.other) :
    Answers u (withdrawStart u) (u.ctrl.mode, none, u.ctrl.degraded || !u.ready y) (if u.ready y = true then [] else u.degradedRecord) := by
  have hjudged : withdrawStart u = if u.ready y = true then { u with ctrl := { u.ctrl with scheduled := none } }
      else setDegraded { u with ctrl := { u.ctrl with scheduled := none } } := by
    rw [withdrawStart_eq hst]
    unfold withdrawnIn
    obtain hmode | hmode := hmode
    · rw [hmode]; rfl
    · rw [hmode]; dsimp only; rw [Port.other_other]; rfl
  rw [hjudged]
  cases hready : u.ready y with
  | true =>
    rw [Bool.not_true, Bool.or_false]
    exact ⟨rfl, List.prefix_rfl⟩
  | false =>
    rw [Bool.not_false, Bool.or_true, if_neg Bool.false_ne_true, if_neg Bool.false_ne_true]
    have hset := answers_setDegraded { u with ctrl := { u.ctrl with scheduled := none } }
    exact ⟨hset.standing, hset.records⟩

end

/-! #### The response by state, for each verdict (4.11) -/

/-- A port that becomes GOOD or SUSPECT (R62, R65 to R67). -/
theorem respondVerdict_ready {p : Port} {old new : Verdict} {s : State} (hnew : new = .good ∨ new = .suspect) :
    respondVerdict p old new s = match s.ctrl.mode with
      | .idle => if old.ready = true then s else openingChoice p s
      | .opening _ => s
      | .on x => if p = x then clearDegraded s
          else if new = .good ∧ s.ctrl.degraded = true ∧ s.ctrl.auto = true then resolveDegraded p s else s
      | .fade x => if p = x then s else if new = .good then clearDegraded s else s := by
  have hfailed : new ≠ .failed := by rintro rfl; simp at hnew
  have hready : new.ready = true := by obtain rfl | rfl := hnew <;> rfl
  unfold respondVerdict
  cases s.ctrl.mode with
  | idle => cases old.ready <;> simp [hfailed, hready]
  | opening x => simp [hfailed]
  | on x => simp [hfailed, hready]
  | fade x => simp [hfailed]

/-- A port that becomes FAILED (R63 to R65, R67, R69). -/
theorem respondVerdict_failed (p : Port) (old : Verdict) (s : State) :
    respondVerdict p old .failed s = match s.ctrl.mode with
      | .idle => if s.startWaits .opening p = true then withdrawStart s else s
      | .opening x => if p = x then abandonOpening x s else s
      | .on x => if p = x then onAirFailed x s else if s.startWaits .fade p = true then withdrawStart s else s
      | .fade x => if p = x then (if s.startWaits .reversal x = true then withdrawStart s else s) else incomingFailed x s := by
  unfold respondVerdict
  cases s.ctrl.mode <;> simp

theorem startWaits_iff (s : State) (act : StartAction) (p : Port) :
    s.startWaits act p = true ↔ ∃ cause, s.ctrl.scheduled = some ⟨act, p, cause⟩ := by
  unfold State.startWaits
  rcases s.ctrl.scheduled with - | ⟨action, target, cause⟩
  · simp
  · simp

/-! #### What follows the response: the end of the hold-off count and the window notice (R75, R76) -/

theorem cancelPendingSwitch_ctrl (s : State) : (cancelPendingSwitch s).ctrl = { s.ctrl with pendingSwitch := none } := by
  unfold cancelPendingSwitch
  split
  · next hnone => rw [← hnone]
  · rfl

/-- A revert record waits (R75). -/
abbrev State.RevertWaits (s : State) : Prop := ∃ r ∈ s.ctrl.pendingSwitch, r.cause = .revert

/-- The end of the hold-off count touches the count and a revert record alone (R75). -/
theorem resetHoldoff_ctrl (s : State) :
    (resetHoldoff s).ctrl
      = { s.ctrl with holdoff := 0, pendingSwitch := if s.RevertWaits then none else s.ctrl.pendingSwitch } := by
  unfold resetHoldoff cancelRevert
  split
  · next target trigger hrevert =>
    have hwaits : s.RevertWaits := ⟨_, hrevert, rfl⟩
    rw [cancelPendingSwitch_ctrl, if_pos hwaits]
  · next hother =>
    have hnone : ¬ s.RevertWaits := by
      rintro ⟨⟨target, trigger, cause⟩, hr, rfl⟩
      exact hother target trigger hr
    rw [if_neg hnone]

/-- The state `t` is `s` after the end of the hold-off count and a window notice of verdict `v`, as far as these are due: the decisions
stand, and no record is created behind a scheduled start or by a verdict that is not GOOD. -/
structure SettledBehind (v : Verdict) (s t : State) : Prop where
  ask : AskFrame s t
  standing : t.standing = s.standing
  unarmed : s.ctrl.pendingSwitch = none → s.ctrl.scheduled ≠ none ∨ v ≠ .good → t.ctrl.pendingSwitch = none

theorem SettledBehind.refl (v : Verdict) (s : State) : SettledBehind v s s := ⟨.refl s, rfl, fun h _ => h⟩

theorem SettledBehind.trans {v : Verdict} {s t u : State} (h1 : SettledBehind v s t) (h2 : SettledBehind v t u) : SettledBehind v s u := by
  have hscheduled : t.ctrl.scheduled = s.ctrl.scheduled := congrArg (·.2.1) h1.standing
  exact ⟨h1.ask.trans h2.ask, h2.standing.trans h1.standing, fun hnone h => h2.unarmed (h1.unarmed hnone h) (by rwa [hscheduled])⟩

theorem settled_resetHoldoff (v : Verdict) (s : State) : SettledBehind v s (resetHoldoff s) := by
  refine ⟨(within_resetHoldoff s).ask, ?_, fun hnone _ => ?_⟩
  · unfold State.standing
    rw [resetHoldoff_ctrl]
  · rw [resetHoldoff_ctrl]
    exact ite_of (P := (· = none)) rfl hnone

/-- A window notice whose verdict is not GOOD ends the hold-off count of the preferred port (R75). -/
theorem takeNotice_of_not_good {v : Verdict} (h : v ≠ .good) (p : Port) (s : State) :
    takeNotice p v s = if p = s.preferred then resetHoldoff s else s := by
  unfold takeNotice
  rw [if_neg fun hgood : revertConditions s = true ∧ v = .good => h hgood.2]

theorem settled_takeNotice (p : Port) (v : Verdict) (s : State) : SettledBehind v s (takeNotice p v s) := by
  have hask := (within_takeNotice p v s).ask
  unfold takeNotice at hask ⊢
  split
  · next hp =>
    rw [if_pos hp] at hask
    split
    · next hcounted =>
      obtain ⟨hconditions, hgood⟩ := hcounted
      have hstart : s.ctrl.scheduled = none := by
        unfold revertConditions at hconditions
        exact Option.isNone_iff_eq_none.mp (Bool.and_eq_true_iff.mp hconditions).2
      rw [if_pos ⟨hconditions, hgood⟩] at hask
      refine ⟨hask, ?_, fun _ h => h.elim (fun hne => absurd hstart hne) (fun hne => absurd hgood hne)⟩
      dsimp only
      split
      · rw [createPendingSwitch_eq]; rfl
      · rfl
    · exact settled_resetHoldoff v s
  · exact .refl v s

theorem settled_takeVerdictChange (p : Port) (old new : Verdict) (s : State) :
    SettledBehind new (respondVerdict p old new s) (takeVerdictChange p old new s) := by
  unfold takeVerdictChange
  exact ite_of (P := SettledBehind new (respondVerdict p old new s)) (settled_resetHoldoff _ _) (.refl _ _)

/-! #### A window that changes the verdict (R35) -/

/-- The health record of port p after its next window. -/
def State.nextHealth (s : State) (p : Port) : HealthRecord :=
  (closeWindow p s).health.get p

/-- The records of port p's next window up to its VERDICT (log 13). -/
def State.verdictRecords (s : State) (p : Port) : List EventBody :=
  changeRecords p (s.ports.get p).rx (s.portAfterWindow p).rx (s.ports.get p)
    ++ [.verdict p (s.nextHealth p).verdict (s.nextHealth p).cause (s.nextHealth p).score]

/-- A port that stays LOCKED places VERDICT first. -/
theorem verdictRecords_of_locked {s : State} {p : Port} (hrx : (s.ports.get p).rx = .locked)
    (hlocked : (s.portAfterWindow p).rx = .locked) :
    s.verdictRecords p = [.verdict p (s.nextHealth p).verdict (s.nextHealth p).cause (s.nextHealth p).score] := by
  unfold State.verdictRecords changeRecords
  rw [hrx, hlocked]
  rfl

/-- The state in which the controller is told of port p's new verdict: the record written, and VERDICT placed (R35). -/
def State.noted (s : State) (p : Port) : State :=
  offerEvent (.verdict p (s.nextHealth p).verdict (s.nextHealth p).cause (s.nextHealth p).score)
    ((s.transitioned p).setHealth p (s.nextHealth p))

/-- The state that the controller's response leaves. -/
def State.responded (s : State) (p : Port) : State :=
  respondVerdict p (s.health.get p).verdict (s.nextHealth p).verdict (s.noted p)

section

variable (s : State) (p : Port)

theorem noted_ctrl : (s.noted p).ctrl = s.ctrl := transitioned_ctrl s p

theorem noted_tables : (s.noted p).tables = s.tables := transitioned_tables s p

theorem noted_ready_self : (s.noted p).ready p = (s.nextHealth p).verdict.ready := by
  unfold State.ready State.noted
  rw [offerEvent_health, setHealth_health, PerPort.get_set_self]

theorem noted_ready_other : (s.noted p).ready p.other = s.ready p.other := by
  unfold State.ready State.noted
  rw [offerEvent_health, setHealth_health, PerPort.get_set_other, transitioned_health]

theorem noted_preferred : (s.noted p).preferred = s.preferred :=
  congrArg (fun t : TableMemory => t.live.preferred) (noted_tables s p)

theorem noted_clock : (s.noted p).clock = s.clock := by
  show (s.transitioned p).clock = s.clock
  rw [transitioned_eq]

theorem noted_events : (s.noted p).events = s.recording (s.verdictRecords p) := by
  have hstamp : (s.transitioned p).stamp = s.stamp := congrArg (fun c : Clock => BitVec.ofNat 32 c.window.toNat) (noted_clock s p)
  have hevents : (s.transitioned p).events
      = s.recording (changeRecords p (s.ports.get p).rx (s.portAfterWindow p).rx (s.ports.get p)) := by rw [transitioned_eq]
  unfold State.verdictRecords
  rw [recording_append, ← hevents, ← hstamp]
  rfl

/-- Records that the controller places then follow VERDICT. -/
theorem noted_recording (own : List EventBody) : (s.noted p).recording own = s.recording (s.verdictRecords p ++ own) := by
  rw [recording_append, ← noted_events]
  unfold State.recording State.stamp
  rw [noted_clock]

/-- The opening choice is the one that the state before the window gives, for a port made ready. -/
theorem noted_choiceFor : (s.noted p).choiceFor p = s.choiceFor p := by
  have hpreferred : s.preferred = p ∨ (s.noted p).ready s.preferred = true ↔ s.preferred = p ∨ s.ready s.preferred = true := by
    obtain h | h := Port.eq_or_other p s.preferred
    · exact iff_of_true (.inl h) (.inl h)
    · rw [h, noted_ready_other]
  unfold State.choiceFor
  simp only [noted_ctrl, noted_preferred, hpreferred]

theorem noted_degradedRecord : (s.noted p).degradedRecord = s.degradedRecord := by
  unfold State.degradedRecord
  rw [noted_ctrl]

theorem noted_startWaits (act : StartAction) (x : Port) : (s.noted p).startWaits act x = s.startWaits act x := by
  unfold State.startWaits
  rw [noted_ctrl]

end

theorem handVerdict_of_change {p : Port} {h : HealthRecord} {s : State} (hne : h.verdict ≠ (s.health.get p).verdict) :
    handVerdict p h s = takeVerdictChange p (s.health.get p).verdict h.verdict
      (offerEvent (.verdict p h.verdict h.cause h.score) (s.setHealth p h)) :=
  if_neg hne

theorem setHealth_setHealth (s : State) (p : Port) (h g : HealthRecord) : (s.setHealth p h).setHealth p g = s.setHealth p g := by
  unfold State.setHealth
  rw [PerPort.set_set]

/-- A judgement that changes the verdict tells the controller so, and then gives it the window notice (R35, R36). -/
theorem examined_of_judgement {s : State} {p : Port} (hrx : (s.ports.get p).rx = .locked) (hlocked : (s.portAfterWindow p).rx = .locked)
    (hchange : (s.nextHealth p).verdict ≠ (s.health.get p).verdict) :
    s.examined p = takeNotice p (s.nextHealth p).verdict
      (takeVerdictChange p (s.health.get p).verdict (s.nextHealth p).verdict (s.noted p)) := by
  have hnew : evaluated (s.weighed p).live (s.windowReport p) ((s.weighed p).health.get p) ((s.weighed p).health.get p.other)
      = s.nextHealth p := (weighed_evaluated s p).trans (closeWindow_health_of_locked hlocked).symm
  have hold : (s.weighed p).health.get p = s.health.get p := (weighed_own s p).trans (if_pos hrx)
  have hhand : handVerdict p (s.nextHealth p) (s.weighed p)
      = takeVerdictChange p (s.health.get p).verdict (s.nextHealth p).verdict (s.noted p) := by
    rw [handVerdict_of_change (by rw [hold]; exact hchange), hold]
    unfold State.weighed State.noted
    rw [setHealth_setHealth]
  rw [examined_of_locked hlocked]
  unfold evaluateWindow
  dsimp only
  rw [hnew, hhand]

/-- A forced failure that changes the verdict tells the controller so (R34, R35). -/
theorem examined_of_forced {s : State} {p : Port} (hlost : (s.portAfterWindow p).rx ≠ .locked)
    (hchange : (s.nextHealth p).verdict ≠ (s.health.get p).verdict) :
    s.examined p = takeVerdictChange p (s.health.get p).verdict (s.nextHealth p).verdict (s.noted p) := by
  have hown : (s.transitioned p).health.get p = s.health.get p := by rw [transitioned_health]
  have hforced : s.nextHealth p = _ := closeWindow_health_of_unlocked hlost
  have hleft : (s.ports.get p).rx ≠ (s.portAfterWindow p).rx ∧ (s.health.get p).lockView = true := by
    by_contra hstays
    rw [if_neg hstays] at hforced
    exact hchange (congrArg HealthRecord.verdict hforced)
  rw [if_pos hleft] at hforced
  have hreport : s.examined p = handVerdict p (s.nextHealth p) (s.transitioned p) := by
    refine (takeHealthReport_of_unlocked (r := s.windowReport p) hlost).trans ?_
    rw [hown]
    refine (if_pos (Bool.and_eq_true_iff.mpr ⟨bne_iff_ne.mpr hleft.1, hleft.2⟩)).trans ?_
    exact congrArg (handVerdict p · (s.transitioned p)) hforced.symm
  rw [hreport, handVerdict_of_change (by rw [hown]; exact hchange), hown]
  rfl

/-- A window of a LOCKED port that changes its verdict, by a judgement or by a forced failure, tells the controller so, and what else the
health report brings settles behind the controller's response (R21, R34 to R36). -/
theorem examined_of_change {s : State} {p : Port} (hrx : (s.ports.get p).rx = .locked)
    (hchange : (s.nextHealth p).verdict ≠ (s.health.get p).verdict) :
    SettledBehind (s.nextHealth p).verdict (s.responded p) (s.examined p) := by
  by_cases hlocked : (s.portAfterWindow p).rx = .locked
  · rw [examined_of_judgement hrx hlocked hchange]
    exact (settled_takeVerdictChange _ _ _ _).trans (settled_takeNotice _ _ _)
  · rw [examined_of_forced hlocked hchange]
    exact settled_takeVerdictChange _ _ _ _

/-- Where the controller's answer to a changed verdict is known, so is what the window leaves: its decisions, and its records behind
those of the receiver's change and VERDICT. -/
theorem closeWindow_of_answers {s : State} {p : Port} {after : Mode × Option ScheduledStart × Bool} {own : List EventBody}
    (hrx : (s.ports.get p).rx = .locked) (hchange : (s.nextHealth p).verdict ≠ (s.health.get p).verdict)
    (h : Answers (s.noted p) (s.responded p) after own) :
    (closeWindow p s).standing = after
      ∧ (s.recording (s.verdictRecords p ++ own)).records <+: (closeWindow p s).events.records := by
  have hsettled := examined_of_change hrx hchange
  refine ⟨?_, ?_⟩
  · unfold State.standing
    rw [closeWindow_ctrl]
    exact hsettled.standing.trans h.standing
  · have hreported : (s.examined p).Offered (s.reported p) := (frame_takeAlignmentReport _ _ _ _).offered
    rw [← noted_recording]
    exact ((h.records.trans (Offered.records_prefix hsettled.ask.control.offered)).trans (Offered.records_prefix hreported)).trans
      (closeWindow_reported p s).2.2

/-- With no pending switch record left by the controller's answer, the window leaves none behind a scheduled start or a verdict that is
not GOOD (R76). -/
theorem closeWindow_unarmed {s : State} {p : Port} (hrx : (s.ports.get p).rx = .locked)
    (hchange : (s.nextHealth p).verdict ≠ (s.health.get p).verdict) (hnone : (s.responded p).ctrl.pendingSwitch = none)
    (h : (s.responded p).ctrl.scheduled ≠ none ∨ (s.nextHealth p).verdict ≠ .good) :
    (closeWindow p s).ctrl.pendingSwitch = none := by
  rw [closeWindow_ctrl]
  exact (examined_of_change hrx hchange).unarmed hnone h

/-- A failover toward port y, scheduled as the answer to a change of verdict, with no start in the way (R64, R66). -/
theorem answers_failover {s : State} {p y : Port} (hnone : s.ctrl.scheduled = none)
    (hresponded : s.responded p = resolveDegraded y (s.noted p)) :
    Answers (s.noted p) (s.responded p) (s.ctrl.mode, some ⟨.fade, y, .failure⟩, s.ctrl.degraded) (replacedRecord s.ctrl.pendingSwitch)
      ∧ (s.responded p).ctrl.pendingSwitch = none := by
  have hnoted : (s.noted p).ctrl.scheduled = none := by rw [noted_ctrl]; exact hnone
  have h := answers_resolveDegraded (y := y) hnoted
  rw [noted_ctrl] at h
  rw [hresponded]
  exact ⟨h, by rw [resolveDegraded_of_none hnoted]⟩

end Sys2Proof.Machine

/-! ### Ports that become GOOD or SUSPECT (R33, R62, R65 to R67) -/

namespace Sys2Proof.Machine

/-! #### The answer to a port that becomes GOOD or SUSPECT (R62, R65 to R67) -/

theorem ready_iff (v : Verdict) : v.ready = true ↔ v = .good ∨ v = .suspect := by cases v <;> decide

section

variable {s : State} {p : Port} (hnew : (s.nextHealth p).verdict = .good ∨ (s.nextHealth p).verdict = .suspect)

include hnew

/-- The response is that of the table of 4.11 for the two verdicts that make a port ready. -/
theorem responded_ready :
    s.responded p = match s.ctrl.mode with
      | .idle => if (s.health.get p).verdict.ready = true then s.noted p else openingChoice p (s.noted p)
      | .opening _ => s.noted p
      | .on x => if p = x then clearDegraded (s.noted p)
          else if (s.nextHealth p).verdict = .good ∧ s.ctrl.degraded = true ∧ s.ctrl.auto = true then resolveDegraded p (s.noted p)
          else s.noted p
      | .fade x => if p = x then s.noted p else if (s.nextHealth p).verdict = .good then clearDegraded (s.noted p) else s.noted p := by
  refine (respondVerdict_ready hnew).trans ?_
  cases hmode : s.ctrl.mode <;> simp only [noted_ctrl, hmode]

omit hnew in
/-- The answer that decides nothing. -/
theorem answers_noted : Answers (s.noted p) (s.noted p) (s.ctrl.mode, s.ctrl.scheduled, s.ctrl.degraded) [] := by
  have h := Answers.refl (s.noted p)
  rwa [noted_ctrl] at h

omit hnew in
theorem answers_clearDegraded : Answers (s.noted p) (clearDegraded (s.noted p)) (s.ctrl.mode, s.ctrl.scheduled, false) [] :=
  ⟨by rw [← noted_ctrl s p]; rfl, List.prefix_rfl⟩

theorem answers_ready_idle (hmode : s.ctrl.mode = .idle) :
    Answers (s.noted p) (s.responded p)
      (.idle, if (s.health.get p).verdict.ready = true then s.ctrl.scheduled else some (s.choiceFor p), s.ctrl.degraded) [] := by
  rw [responded_ready hnew, hmode]
  dsimp only
  split
  · rw [← hmode]
    exact answers_noted
  · have h := answers_openingChoice ((noted_ready_self s p).trans ((ready_iff _).mpr hnew))
    rwa [noted_choiceFor, noted_ctrl, hmode] at h

theorem answers_ready_opening {x : Port} (hmode : s.ctrl.mode = .opening x) :
    Answers (s.noted p) (s.responded p) (s.ctrl.mode, s.ctrl.scheduled, s.ctrl.degraded) [] := by
  rw [responded_ready hnew, hmode]
  dsimp only
  rw [← hmode]
  exact answers_noted

theorem answers_ready_on (hmode : s.ctrl.mode = .on p) :
    Answers (s.noted p) (s.responded p) (s.ctrl.mode, s.ctrl.scheduled, false) [] := by
  rw [responded_ready hnew, hmode]
  dsimp only
  rw [if_pos rfl, ← hmode]
  exact answers_clearDegraded

/-- The degraded state is resolved toward the other port, made GOOD (R66). -/
theorem responded_resolves (hmode : s.ctrl.mode = .on p.other)
    (hresolves : (s.nextHealth p).verdict = .good ∧ s.ctrl.degraded = true ∧ s.ctrl.auto = true) :
    s.responded p = resolveDegraded p (s.noted p) := by
  rw [responded_ready hnew, hmode]
  dsimp only
  rw [if_neg (Port.ne_other p), if_pos hresolves]

theorem answers_ready_on_other (hmode : s.ctrl.mode = .on p.other)
    (hstands : ¬ ((s.nextHealth p).verdict = .good ∧ s.ctrl.degraded = true ∧ s.ctrl.auto = true ∧ s.ctrl.scheduled = none)) :
    Answers (s.noted p) (s.responded p) (s.ctrl.mode, s.ctrl.scheduled, s.ctrl.degraded) [] := by
  by_cases hresolves : (s.nextHealth p).verdict = .good ∧ s.ctrl.degraded = true ∧ s.ctrl.auto = true
  · obtain ⟨hgood, hdegraded, hauto⟩ := id hresolves
    have hstart : s.ctrl.scheduled.isSome = true := Option.isSome_iff_ne_none.mpr fun hnone => hstands ⟨hgood, hdegraded, hauto, hnone⟩
    have hwaits : resolveDegraded p (s.noted p) = s.noted p := if_pos (by rw [noted_ctrl]; exact hstart)
    rw [responded_resolves hnew hmode hresolves, hwaits]
    exact answers_noted
  · rw [responded_ready hnew, hmode]
    dsimp only
    rw [if_neg (Port.ne_other p), if_neg hresolves, ← hmode]
    exact answers_noted

theorem answers_ready_incoming (hmode : s.ctrl.mode = .fade p.other) :
    Answers (s.noted p) (s.responded p)
      (s.ctrl.mode, s.ctrl.scheduled, if (s.nextHealth p).verdict = .good then false else s.ctrl.degraded) [] := by
  rw [responded_ready hnew, hmode]
  dsimp only
  rw [if_neg (Port.ne_other p), ← hmode]
  split
  · exact answers_clearDegraded
  · exact answers_noted

theorem answers_ready_outgoing (hmode : s.ctrl.mode = .fade p) :
    Answers (s.noted p) (s.responded p) (s.ctrl.mode, s.ctrl.scheduled, s.ctrl.degraded) [] := by
  rw [responded_ready hnew, hmode]
  dsimp only
  rw [if_pos rfl, ← hmode]
  exact answers_noted

end

/-! #### The window that earns GOOD (R33; log 3) -/

/-- A window that changes the verdict to one other than FAILED leaves the port LOCKED (R34). -/
theorem portAfterWindow_locked_of_ready {s : State} {p : Port} (hchange : (s.nextHealth p).verdict ≠ (s.health.get p).verdict)
    (hnew : (s.nextHealth p).verdict ≠ .failed) : (s.portAfterWindow p).rx = .locked := by
  by_contra hlost
  have hhealth : s.nextHealth p = _ := closeWindow_health_of_unlocked hlost
  split at hhealth
  · exact hnew (by rw [hhealth]; rfl)
  · exact hchange (by rw [hhealth])

/-- A judged window leaves this score, verdict and clean count (R30, R32, R33). -/
theorem nextHealth_of_locked {s : State} {p : Port} (hlocked : (s.portAfterWindow p).rx = .locked) :
    (s.nextHealth p).score = s.scoreNext p ∧ (s.nextHealth p).verdict = (s.verdictNext p).1
      ∧ (s.nextHealth p).clean = (s.verdictNext p).2 := by
  have hhealth : s.nextHealth p = _ := (closeWindow_health_of_locked hlocked).trans (evaluated_report s p)
  rw [hhealth]
  exact ⟨rfl, rfl, rfl⟩

/-- A LOCKED port in recovery becomes GOOD only in a window whose clean count is Q_OK (R33). -/
theorem nextHealth_not_good {s : State} {p : Port} (hrx : (s.ports.get p).rx = .locked)
    (hold : (s.health.get p).verdict = .recovering) (hshort : min 255 ((s.health.get p).clean + 1) < s.tables.live.qOk) :
    (s.nextHealth p).verdict ≠ .good := by
  by_cases hlocked : (s.portAfterWindow p).rx = .locked
  · obtain ⟨-, hverdict, -⟩ := nextHealth_of_locked hlocked
    have hjudged : s.judged p = s.health.get p := if_pos hrx
    have hcount : ¬ s.tables.live.qOk ≤ satAdd 255 (s.health.get p).clean 1 := Nat.not_le_of_lt hshort
    rw [hverdict]
    unfold State.verdictNext verdictAfter
    rw [hjudged, hold]
    dsimp only
    rw [if_neg hcount]
    split <;> simp
  · have hhealth : s.nextHealth p = _ := closeWindow_health_of_unlocked hlocked
    rw [hhealth]
    split
    · simp [forcedFailure]
    · rw [hold]; simp

/-- The window with no weighted fault that brings the clean count to Q_OK (R33). -/
theorem nextHealth_good {s : State} {p : Port} (hrx : (s.ports.get p).rx = .locked)
    (hold : (s.health.get p).verdict = .recovering) (hclean : s.weightSum p = 0)
    (hspan : (s.taken p .data).isSome = true ∨ (s.taken p .idle).isSome = true)
    (hcount : s.tables.live.qOk ≤ min 255 ((s.health.get p).clean + 1)) :
    (s.nextHealth p).verdict = .good ∧ (s.nextHealth p).clean = min 255 ((s.health.get p).clean + 1)
      ∧ (s.nextHealth p).score = (s.health.get p).score - s.tables.live.decay := by
  have hlocked : (s.portAfterWindow p).rx = .locked := by
    have hother : ∀ kind, kind = SpanKind.sync ∨ kind = .standby → ¬ (s.taken p kind).isSome = true := by
      simp only [← kindOf_outcome_iff] at hspan ⊢
      rintro kind (rfl | rfl) hkind <;> simp [hkind] at hspan
    have hrun : ¬ s.CompletesRun p := fun hrun => by
      rw [taken_of_absent hrun.1, taken_of_absent hrun.1] at hspan
      simp at hspan
    rw [portAfterWindow_of_locked hrx, if_neg (hother .sync (.inl rfl)), if_neg hrun, if_neg (hother .standby (.inr rfl))]
  obtain ⟨hscore, hverdict, hcleanCount⟩ := nextHealth_of_locked hlocked
  have hjudged : s.judged p = s.health.get p := if_pos hrx
  have hnext : s.verdictNext p = (.good, min 255 ((s.health.get p).clean + 1)) := by
    unfold State.verdictNext verdictAfter satAdd
    rw [hjudged, hold, hclean]
    dsimp only
    rw [if_neg (Nat.lt_irrefl 0), if_pos hcount]
  refine ⟨hverdict.trans (congrArg Prod.fst hnext), hcleanCount.trans (congrArg Prod.snd hnext), hscore.trans ?_⟩
  unfold State.scoreNext
  rw [hclean, if_neg (Nat.lt_irrefl 0), hjudged]

/-- The command of that name is the window close that is due, when that makes a RECOVERING port GOOD (R33; log 3). -/
theorem exec_cleanCountReachesQOk {s : State} {p : Port} (h : s.WindowDue p) :
    exec (.cleanCountReachesQOk p) s =
      if (s.health.get p).verdict = .recovering ∧ (s.nextHealth p).verdict = .good then exec (.windowClose p) s
      else .next s.settleLines := by
  refine (whileRunning_closeIf h _).trans (if_congr ?_ rfl rfl)
  unfold earnsGood
  rw [Bool.and_eq_true, decide_eq_true_iff, decide_eq_true_iff]
  rfl

/-- The start that the opening choice leaves, in the form of the statement's second half. -/
theorem some_choiceFor (s : State) (p : Port) :
    some (s.choiceFor p) = match s.ctrl.scheduled with
      | none => some ⟨.opening, p, .opening⟩
      | some st => if st.action = .opening ∧ st.target = p.other ∧ (s.preferred = p ∨ s.ready s.preferred = true) then
          some { st with target := s.preferred } else s.ctrl.scheduled := by
  unfold State.choiceFor
  cases s.ctrl.scheduled with
  | none => rfl
  | some st => exact apply_ite some _ _ _

/-- Settles O31: the window that earns GOOD, and then the controller's answer to GOOD and SUSPECT, state by state. -/
theorem cleanWindowsEarnGood : Obligations.CleanWindowsEarnGood := by
  unfold Obligations.CleanWindowsEarnGood
  refine ⟨fun s p hdue hrx => ⟨fun hold hclean hspan hcount => ?_, fun hshort => ?_⟩, ?_⟩
  · obtain ⟨hgood, hcleanCount, hscore⟩ := nextHealth_good hrx hold hclean hspan hcount
    have hsame := (exec_cleanCountReachesQOk hdue).trans (if_pos ⟨hold, hgood⟩)
    refine ⟨hsame, _, hsame.trans (exec_windowClose hdue), ?_⟩
    rw [settleLines_health, settleLines_ctrl, windowClose_health]
    refine ⟨hgood, hcleanCount, hscore, fun hmode hquiet => ?_⟩
    have hchange : (s.nextHealth p).verdict ≠ (s.health.get p).verdict := by rw [hgood, hold]; simp
    obtain ⟨hstanding, -⟩ := closeWindow_of_answers hrx hchange (answers_ready_idle (.inl hgood) hmode)
    rw [hold, if_neg (by decide)] at hstanding
    rw [runEngine_closeWindow_quiet hdue hquiet]
    exact ⟨congrArg Prod.fst hstanding, congrArg (·.2.1) hstanding⟩
  · refine (exec_cleanCountReachesQOk hdue).trans (if_neg ?_)
    rintro ⟨hold, hgood⟩
    exact hshort.elim (fun h => h hold) fun hless => nextHealth_not_good hrx hold hless hgood
  · intro s p hdue hquiet hrx start
    refine ⟨_, exec_windowClose hdue, ?_⟩
    rw [runEngine_closeWindow_quiet hdue hquiet]
    intro new hchange hnew after records resolves
    have hstays : new ≠ .failed := fun hfailed => by
      rw [hfailed] at hnew
      simp at hnew
    have hrecords := verdictRecords_of_locked hrx (portAfterWindow_locked_of_ready hchange hstays)
    have hanswer : ∀ {decided own}, Answers (s.noted p) (s.responded p) decided own → after = decided ∧ records own := by
      intro decided own h
      obtain ⟨hstanding, hplaced⟩ := closeWindow_of_answers hrx hchange h
      rw [hrecords] at hplaced
      exact ⟨hstanding, hplaced⟩
    refine ⟨fun hmode => ?_, fun hmode => ?_, fun hmode => ?_, fun hmode hresolves => ?_, fun hmode hstands => ?_, fun hmode => ?_,
      fun hmode => ?_⟩
    · have h := hanswer (answers_ready_idle hnew hmode)
      simp only [ready_iff, some_choiceFor] at h
      exact h
    · exact hmode.elim (fun h => hanswer (answers_ready_opening hnew h)) fun h => hanswer (answers_ready_opening hnew h)
    · exact hanswer (answers_ready_on hnew hmode)
    · obtain ⟨hgood, hdegraded, hauto, hnone⟩ := hresolves
      obtain ⟨hfailover, hunarmed⟩ := answers_failover hnone (responded_resolves hnew hmode ⟨hgood, hdegraded, hauto⟩)
      have hstart : (s.responded p).ctrl.scheduled ≠ none := fun h =>
        Option.some_ne_none _ ((congrArg (·.2.1) hfailover.standing).symm.trans h)
      rw [hdegraded] at hfailover
      obtain ⟨hafter, hplaced⟩ := hanswer hfailover
      exact ⟨hafter, closeWindow_unarmed hrx hchange hunarmed (.inl hstart), hplaced⟩
    · exact hanswer (answers_ready_on_other hnew hmode hstands)
    · exact hanswer (answers_ready_incoming hnew hmode)
    · exact hanswer (answers_ready_outgoing hnew hmode)

end Sys2Proof.Machine

/-! ### Ports that become FAILED (R62 to R67, R69, R75) -/

namespace Sys2Proof.Machine

/-! #### The opening that is abandoned (R48, R63, R105) -/

theorem applyRecentre_keeps (s : State) : (applyRecentre s).tables = s.tables
    ∧ (applyRecentre s).align.transition = s.align.transition ∧ (applyRecentre s).align.deferred = s.align.deferred := by
  unfold applyRecentre
  dsimp only
  split
  · exact ⟨rfl, rfl, rfl⟩
  · rw [recordClamp_eq]; exact ⟨rfl, rfl, rfl⟩

/-- The abandon notice ends the transition and its deferral, and leaves table memory (R48). -/
theorem abandonNotice_keeps (s : State) : (abandonNotice s).tables = s.tables
    ∧ (abandonNotice s).align.transition = false ∧ (abandonNotice s).align.deferred = false := by
  unfold abandonNotice
  dsimp only
  split
  · exact applyRecentre_keeps _
  · exact ⟨rfl, rfl, rfl⟩

/-- An opening is over: the fade position and length are 0, and the alignment unit has neither a transition nor a deferred skew. -/
structure State.OpeningOver (s : State) : Prop where
  q : s.ctrl.q = 0
  len : s.ctrl.len = 0
  transition : s.align.transition = false
  deferred : s.align.deferred = false

/-- What an abandoned opening leaves, with no start scheduled before it (R63, R69, R105; log 37). -/
theorem answers_abandonOpening {u : State} {p : Port} (hnone : u.ctrl.scheduled = none) :
    Answers u (abandonOpening p u)
        (.idle, if u.ready p.other = true then some ⟨.opening, p.other, .opening⟩ else none, u.ctrl.degraded) [.switchAbandoned p]
      ∧ (abandonOpening p u).OpeningOver ∧ (u.applyDeferred = true → (abandonOpening p u).tables.apply = none) := by
  unfold abandonOpening
  dsimp only
  generalize hs1 : offerEvent (.switchAbandoned p) { u with ctrl := { u.ctrl with mode := .idle, q := 0, len := 0 } } = s1
  generalize hs2 : abandonNotice s1 = s2
  generalize hs3 : recordAdoption s2 (releaseDeferred s2) = s3
  obtain ⟨htables2, htransition2, hdeferred2⟩ := hs2 ▸ abandonNotice_keeps s1
  have hframe : ControlFrame s1 s3 := by
    rw [← hs3, ← hs2]
    exact ((frame_abandonNotice s1).trans (frame_releaseDeferred _)).trans (frame_recordAdoption _ _)
  have hctrl : s3.ctrl = { u.ctrl with mode := .idle, q := 0, len := 0 } := by
    rw [← hs3, recordAdoption_ctrl, releaseDeferred_ctrl, ← hs2, abandonNotice_ctrl, ← hs1]
    rfl
  have hparts : s3.align = s2.align ∧ s3.tables = s2.releasedTables := by
    rw [← hs3]
    obtain hrecorded | hrecorded := recordAdoption_eq s2 (releaseDeferred s2) <;> rw [hrecorded, releaseDeferred_eq] <;> exact ⟨rfl, rfl⟩
  have hready : s3.ready p.other = u.ready p.other := (hframe.ready _).trans (by rw [← hs1]; rfl)
  have hchoice := answers_openingRechoice (u := s3) (p := p.other) (by rw [hctrl]; exact hnone)
  have hask := (within_openingRechoice 0 p.other s3).ask
  rw [hctrl, hready] at hchoice
  refine ⟨⟨hchoice.standing, ?_⟩, ⟨?_, ?_, ?_, ?_⟩, fun hwaits => ?_⟩
  · have hfirst : u.recording [.switchAbandoned p] = s1.events := by rw [← hs1]; rfl
    rw [hfirst]
    exact (Offered.records_prefix hframe.offered).trans (Offered.records_prefix hask.control.offered)
  · rw [hask.q, hctrl]
  · rw [hask.len, hctrl]
  · rw [hask.align, hparts.1, htransition2]
  · rw [hask.align, hparts.1, hdeferred2]
  · have hstill : s2.applyDeferred = true := by
      rw [applyDeferred_of_tables htables2, ← hs1]
      exact hwaits
    rw [hask.tables, hparts.2]
    unfold State.releasedTables
    rw [if_pos hstill]

/-- What the alignment unit's report changes in neither the transition flag, the deferral nor table memory. -/
structure NoticesStand (s t : State) : Prop where
  transition : t.align.transition = s.align.transition
  deferred : t.align.deferred = s.align.deferred
  tables : t.tables = s.tables

theorem notices_skewStep (k : Int) {s : State} (hmode : s.ctrl.mode = .idle) : NoticesStand s (skewStep k s) := by
  have hconfirm : ∀ al : Alignment, (confirmSkew k al).transition = al.transition ∧ (confirmSkew k al).deferred = al.deferred := by
    intro al
    unfold confirmSkew
    split <;> exact ⟨rfl, rfl⟩
  obtain ⟨htransition, hdeferred⟩ := hconfirm s.align
  unfold skewStep
  dsimp only
  split
  · rw [acceptSkew_eq]
    refine ⟨htransition, ?_, rfl⟩
    dsimp only
    rw [hmode]
    exact hdeferred
  · exact ⟨htransition, hdeferred, rfl⟩

/-- In IDLE a window's alignment report neither defers a skew nor recentres the port on air (R42, R50). -/
theorem notices_takeAlignmentReport (p : Port) (r : WindowReport) (slot : Slot) {s : State} (hmode : s.ctrl.mode = .idle) :
    NoticesStand s (takeAlignmentReport p r slot s) := by
  have hgathered : NoticesStand s (gatherLead p r.lead (updateStopped p slot s)) := by
    unfold gatherLead
    split
    · exact ⟨rfl, rfl, rfl⟩
    · dsimp only
      split
      · obtain ⟨htransition, hdeferred, htables⟩ := notices_skewStep _
          (s := { updateStopped p slot s with align := { (updateStopped p slot s).align with leads := PerPort.both .unreported } }) hmode
        exact ⟨htransition, hdeferred, htables⟩
      · exact ⟨rfl, rfl, rfl⟩
  have hidle : (gatherLead p r.lead (updateStopped p slot s)).ctrl.mode = .idle := by
    rw [gatherLead_ctrl]
    exact hmode
  unfold takeAlignmentReport
  dsimp only
  rw [if_neg fun hdue => ?_]
  · exact hgathered
  · unfold recentreDue at hdue
    have hon := (of_decide_eq_true hdue).1
    rw [hidle] at hon
    cases hon

theorem closeWindow_tables (p : Port) (s : State) : (closeWindow p s).tables = (s.reported p).tables := by
  have hlane := (lane_handWindowLane p (s.portAfterWindow p).rx (s.outcome p) (s.reported p)).trans (lane_stepDeframer p ageStep _)
  rw [closeWindow_eq]
  dsimp only
  rw [hlane.rest]

/-- The rest of a window leaves an abandoned opening as it is, and its adoption made. -/
theorem closeWindow_of_abandoned {s : State} {p : Port} (hrx : (s.ports.get p).rx = .locked)
    (hchange : (s.nextHealth p).verdict ≠ (s.health.get p).verdict) (hmode : (s.responded p).ctrl.mode = .idle)
    (h : (s.responded p).OpeningOver) :
    (closeWindow p s).OpeningOver ∧ (closeWindow p s).tables = (s.responded p).tables := by
  obtain ⟨hask, -, -⟩ := examined_of_change hrx hchange
  have hstand := notices_takeAlignmentReport p (s.windowReport p) (s.windowSlot p) (s := s.examined p) (hask.mode.trans hmode)
  rw [← reported_eq] at hstand
  obtain ⟨halign, -, -⟩ := closeWindow_reported p s
  refine ⟨⟨?_, ?_, ?_, ?_⟩, ?_⟩
  · rw [closeWindow_ctrl, hask.q, h.q]
  · rw [closeWindow_ctrl, hask.len, h.len]
  · rw [halign, hstand.transition, hask.align, h.transition]
  · rw [halign, hstand.deferred, hask.align, h.deferred]
  · rw [closeWindow_tables, hstand.tables, hask.tables]

/-! #### The answer to a port that becomes FAILED (R63 to R65, R67, R69) -/

section

variable {s : State} {p : Port} (hnew : (s.nextHealth p).verdict = .failed)

include hnew

/-- The response is that of the table of 4.11 for FAILED. -/
theorem responded_failed :
    s.responded p = match s.ctrl.mode with
      | .idle => if s.startWaits .opening p = true then withdrawStart (s.noted p) else s.noted p
      | .opening x => if p = x then abandonOpening x (s.noted p) else s.noted p
      | .on x => if p = x then onAirFailed x (s.noted p)
          else if s.startWaits .fade p = true then withdrawStart (s.noted p) else s.noted p
      | .fade x => if p = x then (if s.startWaits .reversal x = true then withdrawStart (s.noted p) else s.noted p)
          else incomingFailed x (s.noted p) := by
  have hanswer : s.responded p = respondVerdict p (s.health.get p).verdict .failed (s.noted p) := by rw [← hnew]; rfl
  refine hanswer.trans ((respondVerdict_failed p _ _).trans ?_)
  cases hmode : s.ctrl.mode <;> simp only [noted_ctrl, noted_startWaits, hmode]

theorem answers_failed_idle (hmode : s.ctrl.mode = .idle) (haway : ¬ ∃ cause, s.ctrl.scheduled = some ⟨.opening, p, cause⟩) :
    Answers (s.noted p) (s.responded p) (.idle, s.ctrl.scheduled, s.ctrl.degraded) [] := by
  rw [responded_failed hnew, hmode]
  dsimp only
  rw [if_neg (mt (startWaits_iff _ _ _).mp haway), ← hmode]
  exact answers_noted

theorem answers_failed_idle_toward (hmode : s.ctrl.mode = .idle) (htoward : ∃ cause, s.ctrl.scheduled = some ⟨.opening, p, cause⟩) :
    Answers (s.noted p) (s.responded p)
      (.idle, if s.ready p.other = true then some ⟨.opening, p.other, .opening⟩ else none, s.ctrl.degraded) [] := by
  obtain ⟨cause, hst⟩ := id htoward
  rw [responded_failed hnew, hmode]
  dsimp only
  rw [if_pos ((startWaits_iff _ _ _).mpr htoward), ← noted_ready_other]
  have h := answers_withdrawStart_idle (u := s.noted p) (by rw [noted_ctrl]; exact hst) (by rw [noted_ctrl]; exact hmode)
  rwa [noted_ctrl] at h

theorem answers_failed_opening (hmode : s.ctrl.mode = .opening p) (hnone : s.ctrl.scheduled = none) :
    Answers (s.noted p) (s.responded p)
        (.idle, if s.ready p.other = true then some ⟨.opening, p.other, .opening⟩ else none, s.ctrl.degraded) [.switchAbandoned p]
      ∧ (s.responded p).OpeningOver ∧ (s.applyDeferred = true → (s.responded p).tables.apply = none) := by
  rw [responded_failed hnew, hmode]
  dsimp only
  rw [if_pos rfl, ← noted_ready_other, ← applyDeferred_of_tables (noted_tables s p)]
  have h := answers_abandonOpening (u := s.noted p) (p := p) (by rw [noted_ctrl]; exact hnone)
  rwa [noted_ctrl] at h

theorem answers_failed_opening_other (hmode : s.ctrl.mode = .opening p.other) :
    Answers (s.noted p) (s.responded p) (s.ctrl.mode, s.ctrl.scheduled, s.ctrl.degraded) [] := by
  rw [responded_failed hnew, hmode]
  dsimp only
  rw [if_neg (Port.ne_other p), ← hmode]
  exact answers_noted

/-- The port on air fails: a failover toward a ready other port when AUTO is set, and else DEGRADED (R64, R65). -/
theorem responded_failed_on (hmode : s.ctrl.mode = .on p) :
    s.responded p = if s.ctrl.auto = true ∧ s.ready p.other = true then resolveDegraded p.other (s.noted p)
      else setDegraded (s.noted p) := by
  rw [responded_failed hnew, hmode]
  dsimp only
  rw [if_pos rfl]
  unfold onAirFailed
  simp only [noted_ctrl, noted_ready_other, Bool.and_eq_true]

omit hnew in
theorem answers_degraded : Answers (s.noted p) (setDegraded (s.noted p)) (s.ctrl.mode, s.ctrl.scheduled, true) s.degradedRecord := by
  have h := answers_setDegraded (s.noted p)
  rwa [noted_ctrl, noted_degradedRecord] at h

/-- A start withdrawn because port p failed, with the other port on air or coming on air (R69). -/
theorem answers_failed_withdrawn (hmode : s.ctrl.mode = .on p.other ∧ (∃ cause, s.ctrl.scheduled = some ⟨.fade, p, cause⟩)
      ∨ s.ctrl.mode = .fade p ∧ ∃ cause, s.ctrl.scheduled = some ⟨.reversal, p, cause⟩) :
    Answers (s.noted p) (s.responded p) (s.ctrl.mode, none, s.ctrl.degraded || !s.ready p.other)
      (if s.ready p.other = true then [] else s.degradedRecord) := by
  have hwithdrawn : s.responded p = withdrawStart (s.noted p) := by
    rw [responded_failed hnew]
    obtain ⟨hmode, htoward⟩ | ⟨hmode, htoward⟩ := hmode <;> rw [hmode] <;> dsimp only
    · rw [if_neg (Port.ne_other p), if_pos ((startWaits_iff _ _ _).mpr htoward)]
    · rw [if_pos rfl, if_pos ((startWaits_iff _ _ _).mpr htoward)]
  obtain ⟨st, hst⟩ : ∃ st, (s.noted p).ctrl.scheduled = some st := by
    rw [noted_ctrl]
    obtain ⟨-, cause, hst⟩ | ⟨-, cause, hst⟩ := hmode <;> exact ⟨_, hst⟩
  have hair : (s.noted p).ctrl.mode = .on p.other ∨ (s.noted p).ctrl.mode = .fade p.other.other := by
    rw [noted_ctrl, Port.other_other]
    exact hmode.imp (fun h => h.1) fun h => h.1
  have h := answers_withdrawStart_judged hst hair
  rw [hwithdrawn]
  rwa [noted_ctrl, noted_ready_other, noted_degradedRecord] at h

theorem answers_failed_on_other (hmode : s.ctrl.mode = .on p.other) (haway : ¬ ∃ cause, s.ctrl.scheduled = some ⟨.fade, p, cause⟩) :
    Answers (s.noted p) (s.responded p) (s.ctrl.mode, s.ctrl.scheduled, s.ctrl.degraded) [] := by
  rw [responded_failed hnew, hmode]
  dsimp only
  rw [if_neg (Port.ne_other p), if_neg (mt (startWaits_iff _ _ _).mp haway), ← hmode]
  exact answers_noted

theorem answers_failed_outgoing (hmode : s.ctrl.mode = .fade p) (haway : ¬ ∃ cause, s.ctrl.scheduled = some ⟨.reversal, p, cause⟩) :
    Answers (s.noted p) (s.responded p) (s.ctrl.mode, s.ctrl.scheduled, s.ctrl.degraded) [] := by
  rw [responded_failed hnew, hmode]
  dsimp only
  rw [if_pos rfl, if_neg (mt (startWaits_iff _ _ _).mp haway), ← hmode]
  exact answers_noted

/-- The incoming port fails: a scheduled reversal stands, and else there is one toward a ready port when AUTO is set, or DEGRADED
(R67; log 18). -/
theorem responded_failed_incoming (hmode : s.ctrl.mode = .fade p.other) :
    s.responded p = if s.ctrl.scheduled ≠ none then s.noted p
      else if s.ctrl.auto = true ∧ s.ready p.other = true then scheduleStart .reversal p.other .failure (s.noted p)
      else setDegraded (s.noted p) := by
  rw [responded_failed hnew, hmode]
  dsimp only
  rw [if_neg (Port.ne_other p)]
  unfold incomingFailed
  simp only [noted_ctrl, noted_ready_other, Bool.and_eq_true, Option.isSome_iff_ne_none]

omit hnew in
theorem answers_reversal :
    Answers (s.noted p) (scheduleStart .reversal p.other .failure (s.noted p))
      (s.ctrl.mode, some ⟨.reversal, p.other, .failure⟩, s.ctrl.degraded) [] :=
  ⟨by rw [← noted_ctrl s p]; rfl, List.prefix_rfl⟩

end

/-! #### The absent window of the port on air (R23, R30 to R32, R64, R75) -/

/-- An absent window raises ABSENT alone (R23 to R28). -/
theorem raises_of_absent {s : State} {p : Port} (h : s.outcome p = .absent) (k : FaultKind) : s.raises p k = decide (k = .absent) := by
  have hstore : (s.ports.get p).store = [] := (outcome_absent_iff s p).mp h
  have htaken := taken_of_absent h
  unfold State.raises
  cases k with
  | absent => rw [hstore]; rfl
  | check => rw [h]; rfl
  | sequence => simp [htaken]
  | stall => simp [htaken]
  | stopped =>
    dsimp only
    rw [htaken, htaken]
    cases (s.judged p).lastRunning with
    | none => rfl
    | some here => cases (s.health.get p.other).lastData <;> rfl
  | jump => simp [htaken]
  | pilot => simp [htaken]

theorem weightSum_of_absent {s : State} {p : Port} (h : s.outcome p = .absent) : s.weightSum p = s.tables.live.weight .absent := by
  unfold State.weightSum
  simp only [raises_of_absent h]
  simp [faultOrder]

/-- An absent window that fails a ready port: the score reaches T_FAIL, and ABSENT is the cause (R30 to R32). -/
theorem nextHealth_of_absent {s : State} {p : Port} (hrx : (s.ports.get p).rx = .locked) (hlocked : (s.portAfterWindow p).rx = .locked)
    (hready : s.ready p = true) (ho : s.outcome p = .absent) (hweight : 0 < s.tables.live.weight .absent)
    (hfail : s.tables.live.tFail ≤ min 255 ((s.health.get p).score + s.tables.live.weight .absent)) :
    (s.nextHealth p).verdict = .failed ∧ (s.nextHealth p).cause = .fault .absent
      ∧ (s.nextHealth p).score = min 255 ((s.health.get p).score + s.tables.live.weight .absent) := by
  obtain ⟨hscore, hverdict, -⟩ := nextHealth_of_locked hlocked
  have hhealth : s.nextHealth p = _ := (closeWindow_health_of_locked hlocked).trans (evaluated_report s p)
  have hjudged : s.judged p = s.health.get p := if_pos hrx
  have hold : (s.health.get p).verdict = .good ∨ (s.health.get p).verdict = .suspect := (ready_iff _).mp hready
  have hnext : s.scoreNext p = min 255 ((s.health.get p).score + s.tables.live.weight .absent) := by
    unfold State.scoreNext
    rw [weightSum_of_absent ho, if_pos hweight, hjudged]
  have hfailed : (s.verdictNext p).1 = .failed := by
    unfold State.verdictNext verdictAfter
    rw [hjudged, hnext]
    obtain hold | hold := hold <;> rw [hold] <;> exact if_pos hfail
  have hraised : faultOrder.filter (s.raises p) = [.absent] := by
    rw [List.filter_congr fun k _ => raises_of_absent ho k]
    decide
  refine ⟨hverdict.trans hfailed, ?_, hscore.trans hnext⟩
  have hchange : ¬ (s.verdictNext p).1 = (s.judged p).verdict := by
    rw [hfailed, hjudged]
    obtain hold | hold := hold <;> rw [hold] <;> decide
  rw [hhealth]
  dsimp only
  rw [if_neg hchange, hraised]
  exact if_pos hweight

/-- Behind a response that leaves table memory, a judgement of the preferred port that is not GOOD ends the hold-off count, and one of the
other port changes nothing more (R75). -/
theorem takeNotice_takeVerdictChange_ctrl {p : Port} {old new : Verdict} {u : State} (hnew : new ≠ .good)
    (htables : (respondVerdict p old new u).tables = u.tables) :
    (takeNotice p new (takeVerdictChange p old new u)).ctrl
      = if p = u.preferred then (resetHoldoff (respondVerdict p old new u)).ctrl else (respondVerdict p old new u).ctrl := by
  have hpreferred : ∀ t : State, t.tables = u.tables → t.preferred = u.preferred :=
    fun t h => congrArg (fun m : TableMemory => m.live.preferred) h
  have hchange : (takeVerdictChange p old new u).tables = u.tables :=
    (settled_takeVerdictChange p old new u).ask.tables.trans htables
  have htwice : ∀ t : State, (resetHoldoff (resetHoldoff t)).ctrl = (resetHoldoff t).ctrl := by
    intro t
    have hover : ¬ (resetHoldoff t).RevertWaits := fun ⟨r, hr, hrevert⟩ => (resetHoldoff_over t).2 r hr hrevert
    rw [resetHoldoff_ctrl, if_neg hover, resetHoldoff_ctrl]
  rw [takeNotice_of_not_good hnew, hpreferred _ hchange]
  unfold takeVerdictChange
  dsimp only
  rw [hpreferred _ htables]
  by_cases hp : p = u.preferred
  · rw [if_pos hp, if_pos hp]
    by_cases hgood : old = .good
    · rw [if_pos ⟨hp, hgood⟩, htwice]
    · rw [if_neg fun h => hgood h.2]
  · rw [if_neg hp, if_neg hp, if_neg fun h => hp h.1]

/-- A window that fails a ready port changes its verdict (R35). -/
theorem nextHealth_changes_of_ready {s : State} {p : Port} (hready : s.ready p = true) (hnew : (s.nextHealth p).verdict = .failed) :
    (s.nextHealth p).verdict ≠ (s.health.get p).verdict := by
  rw [hnew]
  intro hold
  unfold State.ready at hready
  rw [← hold] at hready
  cases hready

/-- What the controller is left with when a judgement fails the port on air, with no start scheduled (R64, R75). -/
theorem closeWindow_ctrl_of_onAir {s : State} {x : Port} (hrx : (s.ports.get x).rx = .locked) (hlocked : (s.portAfterWindow x).rx = .locked)
    (hmode : s.ctrl.mode = .on x) (hready : s.ready x = true) (hnew : (s.nextHealth x).verdict = .failed) (hnone : s.ctrl.scheduled = none) :
    (closeWindow x s).ctrl = { s.ctrl with
      scheduled := if s.ctrl.auto = true ∧ s.ready x.other = true then some ⟨.fade, x.other, .failure⟩ else none
      pendingSwitch := if (s.ctrl.auto = true ∧ s.ready x.other = true) ∨ s.preferred = x ∧ s.RevertWaits then none
        else s.ctrl.pendingSwitch
      degraded := if s.ctrl.auto = true ∧ s.ready x.other = true then s.ctrl.degraded else true
      holdoff := if s.preferred = x then 0 else s.ctrl.holdoff } := by
  have hchange := nextHealth_changes_of_ready hready hnew
  have htables : (s.responded x).tables = (s.noted x).tables :=
    (within_respondVerdict fun hopening => by rw [noted_ctrl, hmode] at hopening; cases hopening).ask.tables
  have hctrl := takeNotice_takeVerdictChange_ctrl (p := x) (old := (s.health.get x).verdict) (new := (s.nextHealth x).verdict)
    (u := s.noted x) (by rw [hnew]; decide) htables
  have hanswer : (s.responded x).ctrl = if s.ctrl.auto = true ∧ s.ready x.other = true then
      { s.ctrl with pendingSwitch := none, scheduled := some ⟨.fade, x.other, .failure⟩ } else { s.ctrl with degraded := true } := by
    rw [responded_failed_on hnew hmode]
    split
    · rw [resolveDegraded_of_none (by rw [noted_ctrl]; exact hnone), noted_ctrl]
    · rw [setDegraded_eq, noted_ctrl]
  rw [closeWindow_ctrl, examined_of_judgement hrx hlocked hchange, hctrl, noted_preferred]
  change (if x = s.preferred then (resetHoldoff (s.responded x)).ctrl else (s.responded x).ctrl) = _
  rw [resetHoldoff_ctrl]
  unfold State.RevertWaits
  rw [hanswer]
  by_cases hpref : s.preferred = x <;> by_cases hsw : s.ctrl.auto = true ∧ s.ready x.other = true
  · simp [hpref, hsw]
  · rw [if_neg hsw, if_neg hsw, if_neg hsw, if_pos hpref, if_pos hpref.symm]
    simp [hsw, hpref, ← hnone]
  · simp [hpref, Ne.symm hpref, hsw]
  · rw [if_neg hsw, if_neg hsw, if_neg hsw, if_neg hpref, if_neg (Ne.symm hpref)]
    simp [hsw, hpref, ← hnone]

/-! #### The window that fails a port (R35, R62 to R67, R69, R75) -/

/-- The records of a port that leaves LOCKED, in the form of the statement (R6, R123). -/
theorem changeRecords_of_locked {p : Port} {old new : RxState} {x : ShowPort} (h : old = .locked) :
    changeRecords p old new x = (if old = new then [] else [.portState p old new])
      ++ (if old = .locked ∧ new ≠ .locked ∧ x.deframer.busy = true then
        [.mgmtError p .broken (min 16777215 (min 4294967295 (x.counters.broken + 1)))] else []) := by
  unfold changeRecords brokenRecord
  by_cases hnew : new = .locked
  · simp [hnew]
  · simp only [h, hnew, true_and, ne_eq, not_false_eq_true, if_true]
    rfl

/-- The records up to VERDICT of a LOCKED port that a window fails, and what follows them. -/
theorem verdictRecords_append_of_failed {s : State} {p : Port} (hrx : (s.ports.get p).rx = .locked)
    (hnew : (s.nextHealth p).verdict = .failed) (own : List EventBody) :
    s.verdictRecords p ++ own = ((if (s.ports.get p).rx = (s.portAfterWindow p).rx then []
        else [.portState p (s.ports.get p).rx (s.portAfterWindow p).rx])
      ++ (if (s.ports.get p).rx = .locked ∧ (s.portAfterWindow p).rx ≠ .locked ∧ (s.ports.get p).deframer.busy = true then
        [.mgmtError p .broken (min 16777215 (min 4294967295 ((s.ports.get p).counters.broken + 1)))] else []))
      ++ .verdict p .failed (s.nextHealth p).cause (s.nextHealth p).score :: own := by
  unfold State.verdictRecords
  rw [changeRecords_of_locked hrx, hnew, List.append_assoc _ [_] own]
  rfl

/-- An absent window short of a run of N_DOWN leaves a LOCKED port LOCKED (R9). -/
theorem portAfterWindow_locked_of_absent {s : State} {p : Port} (hrx : (s.ports.get p).rx = .locked) (ho : s.outcome p = .absent)
    (hrun : min 255 ((s.ports.get p).absentRun + 1) < s.tables.live.nDown) : (s.portAfterWindow p).rx = .locked := by
  rw [portAfterWindow_of_locked hrx, taken_of_absent ho, taken_of_absent ho, if_neg (by simp), if_neg fun h => Nat.not_le_of_lt hrun h.2,
    if_neg (by simp)]

/-- Settles O32: the absent window that fails the port on air, and then the controller's answer to FAILED, state by state. -/
theorem onAirFailureSchedulesFailover : Obligations.OnAirFailureSchedulesFailover := by
  unfold Obligations.OnAirFailureSchedulesFailover
  refine ⟨fun s x hdue hmode hready hrx ho hrun hweight hfail hnone _ => ?_, fun s p hdue hquiet => ?_⟩
  · intro score switches revert cancelled
    have hlocked := portAfterWindow_locked_of_absent hrx ho hrun
    obtain ⟨hnew, hcause, hscore⟩ := nextHealth_of_absent hrx hlocked hready ho hweight hfail
    have hquiet : s.LaneQuiet x := fun f hf => by rw [ho] at hf; cases hf
    have hchange : (s.nextHealth x).verdict ≠ (s.health.get x).verdict := nextHealth_changes_of_ready hready hnew
    refine ⟨_, exec_windowClose hdue, ?_⟩
    rw [runEngine_closeWindow_quiet hdue hquiet]
    refine ⟨closeWindow_ctrl_of_onAir hrx hlocked hmode hready hnew hnone, ?_⟩
    have hplaced : ∀ {after own}, Answers (s.noted x) (s.responded x) after own →
        (s.recording (.verdict x .failed (.fault .absent) score :: own)).records <+: (closeWindow x s).events.records := by
      intro after own h
      have h := (closeWindow_of_answers hrx hchange h).2
      rwa [verdictRecords_of_locked hrx hlocked, hnew, hcause, hscore] at h
    split
    · next hswitches =>
      exact hplaced (answers_failover hnone ((responded_failed_on hnew hmode).trans (if_pos hswitches))).1
    · next hstays =>
      have hdegraded := answers_degraded (s := s) (p := x)
      rw [← (responded_failed_on hnew hmode).trans (if_neg hstays)] at hdegraded
      unfold State.degradedRecord at hdegraded
      rw [hmode] at hdegraded
      exact hplaced hdegraded
  · intro start toward
    refine ⟨_, exec_windowClose hdue, ?_⟩
    rw [runEngine_closeWindow_quiet hdue hquiet]
    intro hrx hold hnew x y verdict front after records degraded
    have hchange : (s.nextHealth p).verdict ≠ (s.health.get p).verdict := fun h => hold (h.symm.trans hnew)
    have hanswer : ∀ {decided own}, Answers (s.noted p) (s.responded p) decided own → after = decided ∧ records own := by
      intro decided own h
      obtain ⟨hstanding, hplaced⟩ := closeWindow_of_answers hrx hchange h
      rw [verdictRecords_append_of_failed hrx hnew, ← closeWindow_rx] at hplaced
      exact ⟨hstanding, hplaced⟩
    have hdegraded : s.responded p = setDegraded (s.noted p) → start = none → after = (s.ctrl.mode, none, true) ∧ records degraded := by
      intro hset hnone
      have h := answers_degraded (s := s) (p := p)
      rw [← hset, show s.ctrl.scheduled = none from hnone] at h
      exact hanswer h
    refine ⟨fun hmode htoward => ?_, fun hmode haway => ?_, fun hmode hnone => ?_, fun hmode => ?_, fun hmode hnone => ?_,
      fun hmode htoward => ?_, fun hmode haway => ?_, fun hmode => ?_, fun hmode htoward => ?_, fun hmode haway => ?_⟩
    · exact hanswer (answers_failed_idle_toward hnew hmode htoward)
    · exact hanswer (answers_failed_idle hnew hmode haway)
    · obtain ⟨habandoned, hover, hadopted⟩ := answers_failed_opening hnew hmode hnone
      have hidle : (s.responded p).ctrl.mode = .idle := congrArg Prod.fst habandoned.standing
      obtain ⟨⟨hq, hlen, htransition, hdeferred⟩, htables⟩ := closeWindow_of_abandoned hrx hchange hidle hover
      obtain ⟨hafter, hplaced⟩ := hanswer habandoned
      exact ⟨hafter, hq, hlen, htransition, hdeferred, fun hwaits => (congrArg TableMemory.apply htables).trans (hadopted hwaits), hplaced⟩
    · exact hanswer (answers_failed_opening_other hnew hmode)
    · have hresponded := responded_failed_on hnew hmode
      split
      · next hswitches =>
        obtain ⟨hfailover, hunarmed⟩ := answers_failover hnone (hresponded.trans (if_pos hswitches))
        have hbad : (s.nextHealth p).verdict ≠ .good := fun h => absurd (hnew.symm.trans h) (by decide)
        obtain ⟨hafter, hplaced⟩ := hanswer hfailover
        exact ⟨hafter, closeWindow_unarmed hrx hchange hunarmed (.inr hbad), hplaced⟩
      · next hstays => exact hdegraded (hresponded.trans (if_neg hstays)) hnone
    · exact hanswer (answers_failed_withdrawn hnew (.inl ⟨hmode, htoward⟩))
    · exact hanswer (answers_failed_on_other hnew hmode haway)
    · have hresponded := responded_failed_incoming hnew hmode
      split
      · next hstands =>
        rw [if_pos hstands] at hresponded
        exact hanswer (hresponded ▸ answers_noted)
      · next hfree =>
        rw [if_neg hfree] at hresponded
        split
        · next hreverses => exact hanswer (hresponded.trans (if_pos hreverses) ▸ answers_reversal)
        · next hstays => exact hdegraded (hresponded.trans (if_neg hstays)) (not_not.mp hfree)
    · exact hanswer (answers_failed_withdrawn hnew (.inr ⟨hmode, htoward⟩))
    · exact hanswer (answers_failed_outgoing hnew hmode haway)

end Sys2Proof.Machine
